-- ==== Sys2Proof/Word.lean ====
section
/-! DEFINITION. The word types of the machine and the joining of two bytes (00_scope.md R7, R8; 20_memory.md R52). -/

namespace Sys2Proof

/-- An unsigned 8-bit value: a general register, a timer, a cell of `MEM` (R20, R30, R31). -/
abbrev Byte := BitVec 8

/-- An unsigned 16-bit value: the opcode, `pc`, `I`, a stack entry (R23, R24, R28). -/
abbrev Word := BitVec 16

/-- A general-register selector 0 to 15: every value of the 4-bit field is a valid register (R20, R83). -/
abbrev Reg := Fin 16

/-- VF, general register 15, which seven instructions also use as their flag output (R22). -/
abbrev VF : Reg := 15

/-- A row of the display: 64 one-bit pixels, pixel `x` being bit `x` (R32). -/
abbrev PixelRow := BitVec 64

/-- The 16-bit word whose high byte is `hi` and whose low byte is `lo`: `hi * 256 + lo` (R52). -/
def joinBytes (hi lo : Byte) : Word := hi ++ lo

/-- Bits 15:8 of a word. -/
def highByte (w : Word) : Byte := w.extractLsb' 8 8

/-- Bits 7:0 of a word. -/
def lowByte (w : Word) : Byte := w.extractLsb' 0 8

end Sys2Proof
end

