-- ==== Sys2Proof/Syntax.lean ====
section
/-! DEFINITION. The 34 instructions, one constructor per row of the opcode table (30_encoding.md R84), named after the row's pattern. -/

namespace Sys2Proof

/-- The instructions. The fields are those of R81: `x` and `y` select registers, `nn` is an 8-bit immediate,
`nnn` a 12-bit immediate address, `n` the row count of a sprite (R83). -/
inductive Instr where
  /-- `00E0`: clear the display (R170). -/
  | op00E0
  /-- `00EE`: return from subroutine (R131). -/
  | op00EE
  /-- `1NNN`: jump (R132). -/
  | op1NNN (nnn : BitVec 12)
  /-- `2NNN`: call subroutine (R133). -/
  | op2NNN (nnn : BitVec 12)
  /-- `3XNN`: skip if register equals immediate (R134). -/
  | op3XNN (x : Reg) (nn : Byte)
  /-- `4XNN`: skip if register differs from immediate (R135). -/
  | op4XNN (x : Reg) (nn : Byte)
  /-- `5XY0`: skip if registers equal (R136). -/
  | op5XY0 (x y : Reg)
  /-- `6XNN`: load immediate (R141). -/
  | op6XNN (x : Reg) (nn : Byte)
  /-- `7XNN`: add immediate, no flag (R142). -/
  | op7XNN (x : Reg) (nn : Byte)
  /-- `8XY0`: move (R143). -/
  | op8XY0 (x y : Reg)
  /-- `8XY1`: bitwise OR (R144). -/
  | op8XY1 (x y : Reg)
  /-- `8XY2`: bitwise AND (R145). -/
  | op8XY2 (x y : Reg)
  /-- `8XY3`: bitwise exclusive OR (R146). -/
  | op8XY3 (x y : Reg)
  /-- `8XY4`: add with carry out (R147). -/
  | op8XY4 (x y : Reg)
  /-- `8XY5`: subtract, VF = not borrow (R148). -/
  | op8XY5 (x y : Reg)
  /-- `8XY6`: shift right by one; `y` is encoded and ignored (R149). -/
  | op8XY6 (x y : Reg)
  /-- `8XY7`: reverse subtract, VF = not borrow (R150). -/
  | op8XY7 (x y : Reg)
  /-- `8XYE`: shift left by one; `y` is encoded and ignored (R151). -/
  | op8XYE (x y : Reg)
  /-- `9XY0`: skip if registers differ (R137). -/
  | op9XY0 (x y : Reg)
  /-- `ANNN`: load index register (R161). -/
  | opANNN (nnn : BitVec 12)
  /-- `BNNN`: jump with offset `V[0]` (R138). -/
  | opBNNN (nnn : BitVec 12)
  /-- `CXNN`: random byte ANDed with immediate (R153). -/
  | opCXNN (x : Reg) (nn : Byte)
  /-- `DXYN`: draw an `n`-row sprite (R172). -/
  | opDXYN (x y : Reg) (n : Fin 16)
  /-- `EX9E`: skip if key pressed (R181). -/
  | opEX9E (x : Reg)
  /-- `EXA1`: skip if key not pressed (R182). -/
  | opEXA1 (x : Reg)
  /-- `FX07`: read delay timer (R184). -/
  | opFX07 (x : Reg)
  /-- `FX0A`: wait for a key (R183). -/
  | opFX0A (x : Reg)
  /-- `FX15`: set delay timer (R185). -/
  | opFX15 (x : Reg)
  /-- `FX18`: set sound timer (R186). -/
  | opFX18 (x : Reg)
  /-- `FX1E`: add register to index, VF = range overflow (R162). -/
  | opFX1E (x : Reg)
  /-- `FX29`: point index at font glyph (R163). -/
  | opFX29 (x : Reg)
  /-- `FX33`: store binary-coded decimal (R164). -/
  | opFX33 (x : Reg)
  /-- `FX55`: store registers V0 to VX (R165). -/
  | opFX55 (x : Reg)
  /-- `FX65`: load registers V0 to VX (R166). -/
  | opFX65 (x : Reg)
deriving DecidableEq, Repr

end Sys2Proof
end

