-- ==== Sys2Proof/Decode.lean ====
section
/-! DEFINITION. Decoding and encoding of instructions (30_encoding.md R80 to R88, R92). -/

namespace Sys2Proof

/-- The class digit `d3 = op[15:12]` (R81). -/
def fieldClass (op : Word) : BitVec 4 := op.extractLsb' 12 4

/-- The field `X = op[11:8]`, a register selector (R81). -/
def fieldX (op : Word) : Reg := (op.extractLsb' 8 4).toFin

/-- The field `Y = op[7:4]`, a register selector (R81). -/
def fieldY (op : Word) : Reg := (op.extractLsb' 4 4).toFin

/-- The field `N = op[3:0]` (R81). -/
def fieldN (op : Word) : Fin 16 := (op.extractLsb' 0 4).toFin

/-- The field `NN = op[7:0]` (R81). -/
def fieldNN (op : Word) : Byte := op.extractLsb' 0 8

/-- The field `NNN = op[11:0]` (R81). -/
def fieldNNN (op : Word) : BitVec 12 := op.extractLsb' 0 12

/-- Class 0: only the words 0x00E0 and 0x00EE are instructions; there is no `0NNN` (R84, R88). -/
def decodeClass0 (op : Word) : Option Instr :=
  if op = 0x00E0#16 then some .op00E0
  else if op = 0x00EE#16 then some .op00EE
  else none

/-- Classes 5 and 9: the last digit must be 0 (R84, R87). -/
def decodeRegPair (op : Word) (build : Reg → Reg → Instr) : Option Instr :=
  if fieldN op = 0 then some (build (fieldX op) (fieldY op)) else none

/-- Class 8: the last digit selects one of nine operations (R84). -/
def decodeClass8 (op : Word) : Option Instr :=
  match (fieldN op).val with
  | 0x0 => some (.op8XY0 (fieldX op) (fieldY op))
  | 0x1 => some (.op8XY1 (fieldX op) (fieldY op))
  | 0x2 => some (.op8XY2 (fieldX op) (fieldY op))
  | 0x3 => some (.op8XY3 (fieldX op) (fieldY op))
  | 0x4 => some (.op8XY4 (fieldX op) (fieldY op))
  | 0x5 => some (.op8XY5 (fieldX op) (fieldY op))
  | 0x6 => some (.op8XY6 (fieldX op) (fieldY op))
  | 0x7 => some (.op8XY7 (fieldX op) (fieldY op))
  | 0xE => some (.op8XYE (fieldX op) (fieldY op))
  | _ => none

/-- Class E: the low byte selects one of two operations (R84). -/
def decodeClassE (op : Word) : Option Instr :=
  match (fieldNN op).toNat with
  | 0x9E => some (.opEX9E (fieldX op))
  | 0xA1 => some (.opEXA1 (fieldX op))
  | _ => none

/-- Class F: the low byte selects one of nine operations (R84). -/
def decodeClassF (op : Word) : Option Instr :=
  match (fieldNN op).toNat with
  | 0x07 => some (.opFX07 (fieldX op))
  | 0x0A => some (.opFX0A (fieldX op))
  | 0x15 => some (.opFX15 (fieldX op))
  | 0x18 => some (.opFX18 (fieldX op))
  | 0x1E => some (.opFX1E (fieldX op))
  | 0x29 => some (.opFX29 (fieldX op))
  | 0x33 => some (.opFX33 (fieldX op))
  | 0x55 => some (.opFX55 (fieldX op))
  | 0x65 => some (.opFX65 (fieldX op))
  | _ => none

/-- Decode, a total function of the 16-bit word alone: the instruction the word stands for, or `none` for a word that
matches no pattern (`UnknownOpcode`). Dispatch on the class digit, then on the low digit or byte (R84 to R87). -/
def decodeWord (op : Word) : Option Instr :=
  match (fieldClass op).toNat with
  | 0x0 => decodeClass0 op
  | 0x1 => some (.op1NNN (fieldNNN op))
  | 0x2 => some (.op2NNN (fieldNNN op))
  | 0x3 => some (.op3XNN (fieldX op) (fieldNN op))
  | 0x4 => some (.op4XNN (fieldX op) (fieldNN op))
  | 0x5 => decodeRegPair op .op5XY0
  | 0x6 => some (.op6XNN (fieldX op) (fieldNN op))
  | 0x7 => some (.op7XNN (fieldX op) (fieldNN op))
  | 0x8 => decodeClass8 op
  | 0x9 => decodeRegPair op .op9XY0
  | 0xA => some (.opANNN (fieldNNN op))
  | 0xB => some (.opBNNN (fieldNNN op))
  | 0xC => some (.opCXNN (fieldX op) (fieldNN op))
  | 0xD => some (.opDXYN (fieldX op) (fieldY op) (fieldN op))
  | 0xE => decodeClassE op
  | 0xF => decodeClassF op
  | _ => none

/-- Why bytes do not decode. -/
inductive DecodeError where
  /-- The word made of the first two bytes matches none of the 34 patterns (R87). -/
  | unknownOpcode (op : Word)
  /-- Fewer than the two bytes of an instruction are given (R80); the machine's fetch always gives two. -/
  | truncated (bytes : List Byte)
deriving DecidableEq, Repr

/-- Decode on any bytes: the instruction in the first two, high byte first, with the bytes that follow (R52, R80). -/
def decode : List Byte → Except DecodeError (Instr × List Byte)
  | hi :: lo :: rest =>
    match decodeWord (joinBytes hi lo) with
    | some i => .ok (i, rest)
    | none => .error (.unknownOpcode (joinBytes hi lo))
  | short => .error (.truncated short)

/-- The opcode word whose bits are `w` as the opcode table numbers them: every row has 16 bits, the bits of `w` above
`nbits` are no part of it (R80, R92). -/
def tableWord (nbits w : Nat) : Word := BitVec.ofNat 16 (w % 2 ^ nbits)

/-- The instruction the decoder reads from a word numbered as the opcode table numbers it, laid out in memory order:
the byte with bits 15:8 at the lower address (R52, R80). -/
def decodeTableWord (nbits w : Nat) : Option Instr :=
  match decode [highByte (tableWord nbits w), lowByte (tableWord nbits w)] with
  | .ok (i, _) => some i
  | .error _ => none

/-- Format `NNN`: class digit, 12-bit address (R82). -/
def wordNNN (c : BitVec 4) (nnn : BitVec 12) : Word := c ++ nnn

/-- Format `XNN`: class digit, register selector, immediate byte. Format `XKK` is the same layout with the sub-opcode in
place of the immediate (R82). -/
def wordXNN (c : BitVec 4) (x : Reg) (nn : Byte) : Word := (c ++ BitVec.ofFin x ++ nn : BitVec (4 + 4 + 8))

/-- Format `XYN`: class digit, two register selectors, row count. Format `XYK` is the same layout with the sub-opcode in
place of the count (R82). -/
def wordXYN (c : BitVec 4) (x y : Reg) (n : Fin 16) : Word :=
  (c ++ BitVec.ofFin x ++ BitVec.ofFin y ++ BitVec.ofFin n : BitVec (4 + 4 + 4 + 4))

/-- The opcode word of an instruction (R82, R84). -/
def encode : Instr → Word
  | .op00E0 => 0x00E0#16
  | .op00EE => 0x00EE#16
  | .op1NNN nnn => wordNNN 0x1#4 nnn
  | .op2NNN nnn => wordNNN 0x2#4 nnn
  | .op3XNN x nn => wordXNN 0x3#4 x nn
  | .op4XNN x nn => wordXNN 0x4#4 x nn
  | .op5XY0 x y => wordXYN 0x5#4 x y 0x0
  | .op6XNN x nn => wordXNN 0x6#4 x nn
  | .op7XNN x nn => wordXNN 0x7#4 x nn
  | .op8XY0 x y => wordXYN 0x8#4 x y 0x0
  | .op8XY1 x y => wordXYN 0x8#4 x y 0x1
  | .op8XY2 x y => wordXYN 0x8#4 x y 0x2
  | .op8XY3 x y => wordXYN 0x8#4 x y 0x3
  | .op8XY4 x y => wordXYN 0x8#4 x y 0x4
  | .op8XY5 x y => wordXYN 0x8#4 x y 0x5
  | .op8XY6 x y => wordXYN 0x8#4 x y 0x6
  | .op8XY7 x y => wordXYN 0x8#4 x y 0x7
  | .op8XYE x y => wordXYN 0x8#4 x y 0xE
  | .op9XY0 x y => wordXYN 0x9#4 x y 0x0
  | .opANNN nnn => wordNNN 0xA#4 nnn
  | .opBNNN nnn => wordNNN 0xB#4 nnn
  | .opCXNN x nn => wordXNN 0xC#4 x nn
  | .opDXYN x y n => wordXYN 0xD#4 x y n
  | .opEX9E x => wordXNN 0xE#4 x 0x9E#8
  | .opEXA1 x => wordXNN 0xE#4 x 0xA1#8
  | .opFX07 x => wordXNN 0xF#4 x 0x07#8
  | .opFX0A x => wordXNN 0xF#4 x 0x0A#8
  | .opFX15 x => wordXNN 0xF#4 x 0x15#8
  | .opFX18 x => wordXNN 0xF#4 x 0x18#8
  | .opFX1E x => wordXNN 0xF#4 x 0x1E#8
  | .opFX29 x => wordXNN 0xF#4 x 0x29#8
  | .opFX33 x => wordXNN 0xF#4 x 0x33#8
  | .opFX55 x => wordXNN 0xF#4 x 0x55#8
  | .opFX65 x => wordXNN 0xF#4 x 0x65#8

/-- The two bytes of an instruction in memory order (R80). -/
def encodeBytes (i : Instr) : List Byte := [highByte (encode i), lowByte (encode i)]

/-- A pattern of the opcode map: a word `w` matches it when `w &&& mask = value` (R84). -/
structure Pattern where
  value : Word
  mask : Word
deriving DecidableEq, Repr

/-- The word is an instance of the pattern (R84). -/
def Pattern.matches (p : Pattern) (op : Word) : Bool := op &&& p.mask == p.value

/-- The pattern of an instruction's row of the opcode map: the `match` and `mask` columns of R84. -/
def Instr.pattern : Instr → Pattern
  | .op00E0 => ⟨0x00E0#16, 0xFFFF#16⟩
  | .op00EE => ⟨0x00EE#16, 0xFFFF#16⟩
  | .op1NNN _ => ⟨0x1000#16, 0xF000#16⟩
  | .op2NNN _ => ⟨0x2000#16, 0xF000#16⟩
  | .op3XNN _ _ => ⟨0x3000#16, 0xF000#16⟩
  | .op4XNN _ _ => ⟨0x4000#16, 0xF000#16⟩
  | .op5XY0 _ _ => ⟨0x5000#16, 0xF00F#16⟩
  | .op6XNN _ _ => ⟨0x6000#16, 0xF000#16⟩
  | .op7XNN _ _ => ⟨0x7000#16, 0xF000#16⟩
  | .op8XY0 _ _ => ⟨0x8000#16, 0xF00F#16⟩
  | .op8XY1 _ _ => ⟨0x8001#16, 0xF00F#16⟩
  | .op8XY2 _ _ => ⟨0x8002#16, 0xF00F#16⟩
  | .op8XY3 _ _ => ⟨0x8003#16, 0xF00F#16⟩
  | .op8XY4 _ _ => ⟨0x8004#16, 0xF00F#16⟩
  | .op8XY5 _ _ => ⟨0x8005#16, 0xF00F#16⟩
  | .op8XY6 _ _ => ⟨0x8006#16, 0xF00F#16⟩
  | .op8XY7 _ _ => ⟨0x8007#16, 0xF00F#16⟩
  | .op8XYE _ _ => ⟨0x800E#16, 0xF00F#16⟩
  | .op9XY0 _ _ => ⟨0x9000#16, 0xF00F#16⟩
  | .opANNN _ => ⟨0xA000#16, 0xF000#16⟩
  | .opBNNN _ => ⟨0xB000#16, 0xF000#16⟩
  | .opCXNN _ _ => ⟨0xC000#16, 0xF000#16⟩
  | .opDXYN _ _ _ => ⟨0xD000#16, 0xF000#16⟩
  | .opEX9E _ => ⟨0xE09E#16, 0xF0FF#16⟩
  | .opEXA1 _ => ⟨0xE0A1#16, 0xF0FF#16⟩
  | .opFX07 _ => ⟨0xF007#16, 0xF0FF#16⟩
  | .opFX0A _ => ⟨0xF00A#16, 0xF0FF#16⟩
  | .opFX15 _ => ⟨0xF015#16, 0xF0FF#16⟩
  | .opFX18 _ => ⟨0xF018#16, 0xF0FF#16⟩
  | .opFX1E _ => ⟨0xF01E#16, 0xF0FF#16⟩
  | .opFX29 _ => ⟨0xF029#16, 0xF0FF#16⟩
  | .opFX33 _ => ⟨0xF033#16, 0xF0FF#16⟩
  | .opFX55 _ => ⟨0xF055#16, 0xF0FF#16⟩
  | .opFX65 _ => ⟨0xF065#16, 0xF0FF#16⟩

/-- The 34 patterns of the opcode map in the order of R84. -/
def opcodeMap : List Pattern :=
  [Instr.op00E0, .op00EE, .op1NNN 0, .op2NNN 0, .op3XNN 0 0, .op4XNN 0 0, .op5XY0 0 0, .op6XNN 0 0, .op7XNN 0 0,
   .op8XY0 0 0, .op8XY1 0 0, .op8XY2 0 0, .op8XY3 0 0, .op8XY4 0 0, .op8XY5 0 0, .op8XY6 0 0, .op8XY7 0 0].map
    Instr.pattern
  ++ [Instr.op8XYE 0 0, .op9XY0 0 0, .opANNN 0, .opBNNN 0, .opCXNN 0 0, .opDXYN 0 0 0, .opEX9E 0, .opEXA1 0,
   .opFX07 0, .opFX0A 0, .opFX15 0, .opFX18 0, .opFX1E 0, .opFX29 0, .opFX33 0, .opFX55 0, .opFX65 0].map
    Instr.pattern

end Sys2Proof
end

