-- ==== Sys2Proof/Machine/Flags.lean ====
section
/-! DEFINITION. The flag computations: what each flag-writing instruction reports in VF (10_state.md R22; 42_alu.md R152).
The collision of DXYN is computed with the drawing, in Machine/Raster.lean. -/

namespace Sys2Proof.Machine

/-- Carry of 8XY4: the true sum is greater than 255 (R147, R152). -/
def carryOut (a b : Byte) : Bool := 255 < a.toNat + b.toNat

/-- Not-borrow of `a - b` in 8XY5 and 8XY7: the minuend is at least the subtrahend (R148, R150, R152). -/
def notBorrow (a b : Byte) : Bool := b.toNat ≤ a.toNat

/-- The bit 8XY6 shifts out: bit 0 before the shift (R149, R152). -/
def shiftedOutRight (a : Byte) : Bool := a.getLsbD 0

/-- The bit 8XYE shifts out: bit 7 before the shift (R151, R152). -/
def shiftedOutLeft (a : Byte) : Bool := a.getLsbD 7

/-- The flag of FX1E: the unreduced sum `I + V[X]` exceeds 0xFFF (R162). -/
def indexOverflow (i : Word) (a : Byte) : Bool := 0xFFF < i.toNat + a.toNat

end Sys2Proof.Machine
end

