-- ==== Sys2Proof/Config.lean ====
section
/-! DEFINITION. What the implementation fixes, the types of its arguments, and the free values (00_scope.md R6,
92_eei_decisions.md). The defaults of the arguments `FONT`, `VF_PRIORITY` and `KEY_SELECT` stand in Machine/Params.lean. -/

namespace Sys2Proof.Config

/-- `MEM_SIZE`: the number of cells of `MEM` (R6, R50). -/
abbrev memSize : Nat := 4096

/-- `ROM_BASE`: where the ROM image is loaded, and the reset value of `pc` (R6, R57). -/
abbrev romBase : Nat := 0x200

/-- `ROM_MAX`: the longest image, 4096 minus 0x200 bytes (R6, R57). -/
abbrev romMax : Nat := 3584

/-- `FONT_SIZE`: 16 glyphs of 5 bytes at addresses 0x000 to 0x04F (R6, R58). -/
abbrev fontSize : Nat := 80

/-- A value of the parameter `FONT`: the 80 bytes of the font, byte `5 * g + r` being row `r` of glyph `g` (R6, R58). -/
abbrev FontTable := Vector Byte fontSize

/-- A value of the parameter `VF_PRIORITY` (R6, R114, D7): which of the two writes VF holds afterwards when an instruction
that writes a result and a flag has X = F. -/
inductive VfPriority where
  /-- The flag is written last. -/
  | flag
  /-- The result is written last. -/
  | result
deriving DecidableEq, Repr

/-- A value of the parameter `KEY_SELECT` (R6, R183, D5): which key FX0A stores when several are pressed. -/
inductive KeySelect where
  /-- The least pressed index, the default. -/
  | lowest
  /-- The spec's safe superset: any pressed key, the choice being free in each FX0A (`keyChoice`). -/
  | any
deriving DecidableEq, Repr

/-- The program-visible contents of R20 to R34 as plain data, for the moments at which the spec leaves all of them
unspecified (R42, R242). -/
structure Contents where
  v : Vector Byte 16
  i : Word
  pc : Word
  sp : Fin 17
  stk : Vector Word 16
  dt : Byte
  st : Byte
  mem : List Host.Cell
  fb : Vector PixelRow 32
  changed : Bool
  keys : BitVec 16
deriving Inhabited

/-- FREE VALUE. `rnd` of the `n`-th draw: an unconstrained byte, a fresh one per executed CXNN (R153,
92_eei_decisions.md D6; notes/assumptions/4.md). -/
opaque rnd (n : Nat) : Byte

/-- FREE VALUE. The choice of the `n`-th draw among several pressed keys under `KEY_SELECT = any`: an unconstrained number,
a fresh one per FX0A that stores a key (R183, D5; notes/assumptions/7.md). -/
opaque keyChoice (n : Nat) : Nat

/-- FREE VALUE. The contents of R20 to R34 where the spec calls them unspecified: before the first successful reset
and after a refused one (R42, R242; notes/assumptions/9.md). -/
opaque unspecified (n : Nat) : Contents

end Sys2Proof.Config
end

