-- ==== Sys2Proof/Machine/Params.lean ====
section
/-! DEFINITION. The defaults of the arguments of the machine (00_scope.md R6). `State.reset` takes them; every other definition
takes the arguments from the state (`Memory.font`, `State.vfPriority`, `State.keySelect`). -/

namespace Sys2Proof.Machine.Params

/-- Glyphs 0 to 7 of the default `FONT` (20_memory.md R58). -/
def fontLow : List Byte :=
  [0xF0#8, 0x90#8, 0x90#8, 0x90#8, 0xF0#8] ++ [0x20#8, 0x60#8, 0x20#8, 0x20#8, 0x70#8] ++
  [0xF0#8, 0x10#8, 0xF0#8, 0x80#8, 0xF0#8] ++ [0xF0#8, 0x10#8, 0xF0#8, 0x10#8, 0xF0#8] ++
  [0x90#8, 0x90#8, 0xF0#8, 0x10#8, 0x10#8] ++ [0xF0#8, 0x80#8, 0xF0#8, 0x10#8, 0xF0#8] ++
  [0xF0#8, 0x80#8, 0xF0#8, 0x90#8, 0xF0#8] ++ [0xF0#8, 0x10#8, 0x20#8, 0x40#8, 0x40#8]

/-- Glyphs 8 to F of the default `FONT` (20_memory.md R58). -/
def fontHigh : List Byte :=
  [0xF0#8, 0x90#8, 0xF0#8, 0x90#8, 0xF0#8] ++ [0xF0#8, 0x90#8, 0xF0#8, 0x10#8, 0xF0#8] ++
  [0xF0#8, 0x90#8, 0xF0#8, 0x90#8, 0x90#8] ++ [0xE0#8, 0x90#8, 0xE0#8, 0x90#8, 0xE0#8] ++
  [0xF0#8, 0x80#8, 0x80#8, 0x80#8, 0xF0#8] ++ [0xE0#8, 0x90#8, 0x90#8, 0x90#8, 0xE0#8] ++
  [0xF0#8, 0x80#8, 0xF0#8, 0x80#8, 0xF0#8] ++ [0xF0#8, 0x80#8, 0xF0#8, 0x80#8, 0x80#8]

/-- The default of `FONT`, glyph `g` at `5 * g`. PRESUMED: the place and the size are the source's, the byte values the
spec's default from general knowledge (R58, D10; notes/assumptions/5.md, unsafe): what is proved of these values holds for
them only. `State.reset` takes this table; every other definition takes the table as the argument `Memory.font`. -/
def font : Config.FontTable := ⟨(fontLow ++ fontHigh).toArray, rfl⟩

/-- The default of `VF_PRIORITY` (R6, 40_cycle.md R114, D7; notes/assumptions/6.md). -/
def vfPriority : Config.VfPriority := .flag

/-- The default of `KEY_SELECT` (R6, 45_keys_timers.md R183, D5; notes/assumptions/7.md). -/
def keySelect : Config.KeySelect := .lowest

end Sys2Proof.Machine.Params
end

