-- ==== Sys2Proof/Machine/State.lean ====
section
/-! DEFINITION. The state of the machine as plain data, and its reset value (10_state.md; 60_exceptions.md R200, R220). -/

namespace Sys2Proof.Machine

/-- Which bound of the stack an `InvalidStackOperation` met (R203). -/
inductive StackFault where
  /-- 2NNN with 16 entries on the stack. -/
  | overflow
  /-- 00EE with none. -/
  | underflow
deriving DecidableEq, Repr

/-- The faults of the machine, each with the information recorded (R200). A fault is an exception whose entry the spec
describes (R206): it is TAKEN, by `State.takeFault`, as a next state in which `State.fault` latches the record and
`running` is 0. So these are the records of that latch, and no step of this model ends in `Host.Outcome.fault`
(notes/assumptions/8.md, safe). -/
inductive Fault where
  /-- Latched by the fetch, DXYN, FX33, FX55 and FX65 for an access at 4096 or above: the lowest offending address and
  `pc` (R201). Safe: the spec's own stop. -/
  | outOfBounds (addr : Nat) (pc : Word)
  /-- Latched by decode for a word that matches no pattern: the word and `pc` (R202). Safe: the spec's own stop. -/
  | unknownOpcode (op : Word) (pc : Word)
  /-- Latched by 2NNN and 00EE at the bounds of the stack: which bound, and `pc` (R203). Safe: the spec's own stop. -/
  | invalidStackOperation (kind : StackFault) (pc : Word)
  /-- Latched by EX9E and EXA1 for a key index above 15: the index and `pc` (R204). Safe: the spec's own stop. -/
  | invalidKeyIndex (index : Byte) (pc : Word)
deriving DecidableEq, Repr

/-- Why the model gives an instruction no meaning. -/
inductive Refusal where
  /-- An instruction of the opcode table without a meaning yet. Nobody raises it: every row has its meaning. Safe: it
  stops the run. -/
  | notModelled (mnemonic : String)
deriving DecidableEq, Repr

/-- The reset refusals, the lifecycle errors of the source (R200, R208, R242). -/
inductive ResetRefusal where
  /-- No image was ever loaded. -/
  | noRomLoaded
  /-- The image is empty. -/
  | invalidState
  /-- The image is longer than 3584 bytes; its length is recorded. -/
  | capacityExceeded (length : Nat)
deriving DecidableEq, Repr

/-- What the machine answers to the host synchronously (R208, R220; 70_reset_and_hazards.md R254). -/
inductive HostAnswer where
  /-- The reset that a command or a pending reset asked for is refused. -/
  | resetRefused (why : ResetRefusal)
  /-- A cycle speed of 0 Hz is refused (R254). -/
  | zeroHzRefused
deriving DecidableEq, Repr

/-- The host's commands, each taking effect between two cycles (R220, R221). A key index is 0 to 15 by the contract of
the key port (R222). -/
inductive HostCmd where
  /-- `pressKey(idx)` (R222). -/
  | pressKey (idx : Fin 16)
  /-- `releaseKey(idx)` (R222). -/
  | releaseKey (idx : Fin 16)
  /-- `load_rom(bytes)` (R227). -/
  | loadRom (bytes : List Byte)
  /-- `init` (R227). -/
  | init
  /-- `run` (R229). -/
  | run
  /-- `pause` (R230). -/
  | pause
  /-- `unpause` (R230). -/
  | unpause
  /-- `reset` (R228). -/
  | reset
  /-- `stop` (R231). -/
  | stop
  /-- `set_cycle_speed` as a delay in milliseconds (R231, R254). -/
  | setCycleDelayMs (ms : Nat)
  /-- `set_cycle_speed` as a frequency (R231, R254). -/
  | setCycleSpeedHz (hz : Nat)
deriving DecidableEq, Repr

/-- The two output strobes (40_cycle.md R119). -/
inductive Strobe where
  | displayChanged
  | cycleDone
deriving DecidableEq, Repr

/-- `MEM` as a list of (address, byte) pairs: addresses strictly rising and below 4096, and no entry equal to what an
unlisted address reads as (`Memory.wf`). An unlisted address reads as its content after reset, less the ROM
(`unlisted`), which is why the parameter `FONT` stands here (notes/assumptions/15.md). -/
structure Memory where
  /-- The argument `FONT` of the machine: the table every reset writes. No step changes it (R6, R58). -/
  font : Config.FontTable
  /-- The listed cells. -/
  cells : List Host.Cell
deriving DecidableEq, Repr

/-- The whole state of the machine, R20 to R36, with the host's inputs and the machine's outputs (R220). -/
structure State where
  /-- V0 to VF (R20). -/
  v : Vector Byte 16
  /-- The index register `I` (R23). -/
  i : Word
  /-- The program counter (R24). -/
  pc : Word
  /-- The stack pointer: how many entries are in use, 0 to 16 (R29). -/
  sp : Fin 17
  /-- The stack array `STK` (R28). -/
  stk : Vector Word 16
  /-- The delay timer (R30). -/
  dt : Byte
  /-- The sound timer (R30). -/
  st : Byte
  /-- The memory (R31). -/
  mem : Memory
  /-- The display buffer, a row of 64 pixels for each `y`: `FB[y*64 + x]` is bit `x` of row `y` (R32). -/
  fb : Vector PixelRow 32
  /-- The flag `changed` (R33). -/
  changed : Bool
  /-- The keys: bit `k` is `K[k]` (R34). -/
  keys : BitVec 16
  /-- Run control: a reset has completed (R35). -/
  initialized : Bool
  /-- Run control: the cycle sequencer is enabled (R35). -/
  running : Bool
  /-- Run control: the sequencer performs no cycle (R35). -/
  paused : Bool
  /-- Run control: a reset is performed at the next cycle boundary (R35). -/
  resetPending : Bool
  /-- The fault latch (R36). -/
  fault : Option Fault
  /-- The image the host last gave with `load_rom`, the argument `ROM` of reset (R227, R241). -/
  rom : Option (List Byte)
  /-- The argument `VF_PRIORITY` of the machine. No step changes it (R6, R114; notes/assumptions/6.md). -/
  vfPriority : Config.VfPriority
  /-- The argument `KEY_SELECT` of the machine. No step changes it (R6, R183; notes/assumptions/7.md). -/
  keySelect : Config.KeySelect
  /-- `CYCLE_DELAY_MS`: timing only, no rule depends on it (R254). -/
  cycleDelayMs : Nat
  /-- The model's own field: what the host will do, one list of commands for each coming cycle boundary, the next
  boundary first; when it is used up the host does nothing more (R221; notes/assumptions/3.md). -/
  inputs : List (List HostCmd)
  /-- Output: the strobes the last step gave, in their order (R119). -/
  strobes : List Strobe
  /-- Output: the answers the host got in the last step, in their order (R208, R220). -/
  answers : List HostAnswer
  /-- The model's own field: how many free values have been drawn (notes/assumptions/4.md). -/
  freeIdx : Nat
deriving DecidableEq, Repr

/-- The machine right after reset (R41, 70_reset_and_hazards.md R240), with no program: the ROM image is an argument of
reset which the host supplies. The arguments `FONT`, `VF_PRIORITY` and `KEY_SELECT` have their defaults (R6;
notes/assumptions/5.md, 6.md, 7.md); under other arguments the reset state has those in `mem.font`, `vfPriority` and
`keySelect` and is otherwise this one. `running` and `paused`, which reset leaves as they
were, hold their power-on value 0 (R35; notes/assumptions/1.md, 2.md). -/
def State.reset : State where
  v := Vector.replicate 16 0#8
  i := 0#16
  pc := 0x0200#16
  sp := 0
  stk := Vector.replicate 16 0#16
  dt := 0#8
  st := 0#8
  mem := ⟨Params.font, []⟩
  fb := Vector.replicate 32 0#64
  changed := false
  keys := 0#16
  initialized := true
  running := false
  paused := false
  resetPending := false
  fault := none
  rom := none
  vfPriority := Params.vfPriority
  keySelect := Params.keySelect
  cycleDelayMs := 0
  inputs := []
  strobes := []
  answers := []
  freeIdx := 0

end Sys2Proof.Machine
end

