-- ==== Sys2Proof/Machine/Ops.lean ====
section
/-! DEFINITION. The named operations over memory, registers, stack, `pc`, timers and strobes, the taking of a fault and the
fetch (20_memory.md; 10_state.md; 40_cycle.md; 60_exceptions.md R206). -/

namespace Sys2Proof.Machine

/-! ### Memory -/

/-- What an address reads as that no entry lists: its content after a reset, less the ROM, that is the font at 0x000 to
0x04F, whatever its bytes, and 0x00 elsewhere (R41, R58, R59). -/
def unlisted (font : Config.FontTable) (a : Nat) : Byte := if h : a < Config.fontSize then font[a] else 0#8

/-- The byte `cells` list at `a`, else what an unlisted `a` reads as. -/
def readCells (font : Config.FontTable) : List Host.Cell → Nat → Byte
  | [], a => unlisted font a
  | (b, w) :: t, a => if b = a then w else readCells font t a

/-- `MEM[a]` of R53, for `a` below 4096 (callers check the bound first, `blockFault?`). -/
def Memory.read (m : Memory) (a : Nat) : Byte := readCells m.font m.cells a

/-- An entry for `w` at `a`, or none when an unlisted `a` reads as `w` already. -/
def cellOf (font : Config.FontTable) (a : Nat) (w : Byte) : List Host.Cell :=
  if w = unlisted font a then [] else [(a, w)]

/-- Replace or insert the entry of `a` in cells with rising addresses. -/
def writeCells (font : Config.FontTable) : List Host.Cell → Nat → Byte → List Host.Cell
  | [], a, w => cellOf font a w
  | (b, u) :: t, a, w =>
    if a < b then cellOf font a w ++ (b, u) :: t
    else if a = b then cellOf font a w ++ t
    else (b, u) :: writeCells font t a w

/-- `MEM[a] <- w` of R54, for `a` below 4096 (callers check the bound first); there is no cell above to write. -/
def Memory.write (m : Memory) (a : Nat) (w : Byte) : Memory :=
  if a < Config.memSize then { m with cells := writeCells m.font m.cells a w } else m

/-- Write bytes at `a`, `a + 1`, ... in ascending order (R56, R61). -/
def Memory.writeBytes (m : Memory) (a : Nat) : List Byte → Memory
  | [] => m
  | w :: ws => (m.write a w).writeBytes (a + 1) ws

/-- Read `n` bytes at `a`, `a + 1`, ... in ascending order (R56, R61). -/
def Memory.readBytes (m : Memory) (a : Nat) : Nat → List Byte
  | 0 => []
  | n + 1 => m.read a :: m.readBytes (a + 1) n

/-- The canonical form of cells from address `lo` on: addresses rising, below 4096, no entry equal to what an unlisted
address reads as. -/
def cellsWf (font : Config.FontTable) : Nat → List Host.Cell → Bool
  | _, [] => true
  | lo, (a, w) :: t =>
    decide (lo ≤ a) && decide (a < Config.memSize) && (w != unlisted font a) && cellsWf font (a + 1) t

/-- The canonical form of memory, in which equal memories are equal data. -/
def Memory.wf (m : Memory) : Bool := cellsWf m.font 0 m.cells

/-- The memory of any cells, brought into canonical form. -/
def Memory.ofCells (font : Config.FontTable) (cells : List Host.Cell) : Memory :=
  ⟨font, (cells.foldl (fun (m : Memory) c => m.write c.1 c.2) ⟨font, []⟩).cells⟩

/-- The bounds check of an access to `count` bytes at `base`, made before any byte moves: the lowest address of the
block that is out of range, `max(base, 4096)`, or `none` when every address exists. Addresses are not wrapped (R55,
R62). -/
def blockFault? (base count : Nat) : Option Nat :=
  if 0 < count ∧ Config.memSize < base + count then some (max base Config.memSize) else none

/-! ### Registers, stack and program counter -/

/-- Read `V[x]` (R20). -/
def State.readV (s : State) (x : Reg) : Byte := s.v[x.val]

/-- Write `V[x]` (R20). -/
def State.writeV (s : State) (x : Reg) (w : Byte) : State := { s with v := s.v.set x.val w }

/-- The value 0x00 or 0x01 a flag-writing instruction stores in VF (R22). -/
def flagByte (f : Bool) : Byte := if f then 0x01#8 else 0x00#8

/-- `V[15] <- 0` or `V[15] <- 1` (R22). -/
def State.writeFlag (s : State) (f : Bool) : State := s.writeV VF (flagByte f)

/-- Write a result to `V[x]` and a flag to VF in the order of the argument `VF_PRIORITY`, so that when `x` is F, VF holds
the one that it names (R114, D7). -/
def State.writeResultFlag (s : State) (x : Reg) (w : Byte) (f : Bool) : State :=
  { s with
    v := match s.vfPriority with
      | .flag => ((s.writeV x w).writeFlag f).v
      | .result => ((s.writeFlag f).writeV x w).v }

/-- `pc <- pc + n` modulo 65536 (R27, R115). -/
def State.advance (s : State) (n : Word) : State := { s with pc := s.pc + n }

/-- The next `pc` of a conditional skip: `pc + 4` when the condition holds, else `pc + 2` (R25, R115, R130). -/
def State.skipIf (s : State) (c : Bool) : State := s.advance (if c then 4#16 else 2#16)

/-- `pc <- target` (R8, R130). -/
def State.jump (s : State) (target : Word) : State := { s with pc := target }

/-- Push a word, `none` when all 16 entries are in use: `STK[SP] <- w; SP <- SP + 1` (R28, R29). -/
def State.push? (s : State) (w : Word) : Option State :=
  if h : s.sp.val < 16 then some { s with stk := s.stk.set s.sp.val w, sp := ⟨s.sp.val + 1, by omega⟩ } else none

/-- Pop a word, `none` when the stack is empty: `SP <- SP - 1`, then `STK[SP]`; the entry keeps its value (R28, R29). -/
def State.pop? (s : State) : Option (Word × State) :=
  if h : 0 < s.sp.val then some (s.stk[s.sp.val - 1], { s with sp := ⟨s.sp.val - 1, by omega⟩ }) else none

/-! ### Faults -/

/-- The entry of a fault: the record is latched and `running` cleared, nothing else changes; `pc` keeps the address of
the faulting instruction (R117, R206). There is no return from a fault: only a successful reset clears the latch
(R207). -/
def State.takeFault (s : State) (f : Fault) : State := { s with fault := some f, running := false }

/-- Take `OutOfBounds` when the block of `count` bytes at `base` leaves the memory, with nothing moved; else the cycle's
writes, `done`, happen (R55, R62, R201, R206). -/
def checkBlock (s : State) (base count : Nat) (done : State) : Host.Outcome State Fault Refusal :=
  match blockFault? base count with
  | some a => .next (s.takeFault (.outOfBounds a s.pc))
  | none => .next done

/-- The fetch: the two bytes at `pc` and `pc + 1`, high byte first, or the fault at the first of them that does not exist
(R52, R111, R201). -/
def State.fetch (s : State) : Except Fault Word :=
  match blockFault? s.pc.toNat 2 with
  | some a => .error (.outOfBounds a s.pc)
  | none => .ok (joinBytes (s.mem.read s.pc.toNat) (s.mem.read (s.pc.toNat + 1)))

/-! ### The end of a cycle -/

/-- One count of a timer: down by one, floor at 0 (R30, R216). -/
def countDown (t : Byte) : Byte := if t = 0#8 then 0#8 else t - 1#8

/-- The timer stage (R116). -/
def State.tickTimers (s : State) : State := { s with dt := countDown s.dt, st := countDown s.st }

/-- The notify stage: `display_changed` if `changed`, which is then cleared, and `cycle_done` always (R119). -/
def State.notify (s : State) : State :=
  { s with
    strobes := if s.changed then [.displayChanged, .cycleDone] else [.cycleDone]
    changed := false }

end Sys2Proof.Machine
end

