-- ==== Sys2Proof/Machine/Operands.lean ====
section
/-! DEFINITION. The operand forms: immediates, effective addresses, register ranges, key indices, the random byte and the
digits of FX33 (30_encoding.md R83; 43_index_memory.md R160). -/

namespace Sys2Proof.Machine

/-- A 12-bit address immediate as a 16-bit value, zero-extended (R83). -/
def immNNN (nnn : BitVec 12) : Word := nnn.setWidth 16

/-- A general-register value as a 16-bit value, zero-extended (R7, R8). -/
def zextV (w : Byte) : Word := w.setWidth 16

/-- The effective address `I + k`, an unbounded sum (R55, R160). -/
def State.effAddr (s : State) (k : Nat) : Nat := s.i.toNat + k

/-- How many bytes FX55 and FX65 move: the `X` field as a number, plus 1 (R83, R165, R166). -/
def blockCount (x : Reg) : Nat := x.val + 1

/-- `I` advanced past a block of `X + 1` bytes: `(i0 + X + 1) mod 65536` (R165, R166). -/
def State.indexPast (s : State) (x : Reg) : Word := BitVec.ofNat 16 (s.effAddr (blockCount x))

/-- The values of V0 to VX in ascending order (R165). -/
def State.regsUpTo (s : State) (x : Reg) : List Byte := s.v.toList.take (blockCount x)

/-- The registers with V0 to VX loaded from `MEM[I]`, `MEM[I + 1]`, ..., and those above VX as they were (R166). -/
def State.loadedRegs (s : State) (x : Reg) : Vector Byte 16 :=
  Vector.ofFn fun k : Fin 16 => if k.val ≤ x.val then s.mem.read (s.effAddr k.val) else s.readV k

/-- The three digits of FX33, hundreds, tens, ones, each a byte of its own (R164). -/
def bcdDigits (w : Byte) : List Byte :=
  [BitVec.ofNat 8 (w.toNat / 100), BitVec.ofNat 8 (w.toNat / 10 % 10), BitVec.ofNat 8 (w.toNat % 10)]

/-- The address of glyph `w`: `w * 5`, all 8 bits of `w` used (R163). -/
def glyphAddr (w : Byte) : Word := zextV w * 5#16

/-- The key a register value names, `none` above 15: the index is not reduced to 4 bits (R181, R182). -/
def keyIndex? (w : Byte) : Option (Fin 16) := if h : w.toNat < 16 then some ⟨w.toNat, h⟩ else none

/-- `K[k]` as sampled for this cycle; a cycle is atomic, so the sample is `K` itself (R113, R222). -/
def State.keyDown (s : State) (k : Fin 16) : Bool := s.keys.getLsbD k.val

/-- The pressed keys in ascending order (R183). -/
def State.pressedKeys (s : State) : List (Fin 16) := (List.finRange 16).filter s.keyDown

/-- The key a `KEY_SELECT` picks from the pressed ones in ascending order, `none` when there is none: the least, or the one
that `choice` names, by which every one of them can be picked (R183, D5). -/
def pickKey (p : Config.KeySelect) (pressed : List (Fin 16)) (choice : Nat) : Option (Fin 16) :=
  match p with
  | .lowest => pressed.head?
  | .any => pressed[choice % pressed.length]?

/-- The key FX0A stores, `none` when all are released: the one the argument `KEY_SELECT` picks, under `any` by a free
choice (R183, D5; notes/assumptions/7.md). -/
def State.selectKey (s : State) : Option (Fin 16) := pickKey s.keySelect s.pressedKeys (Config.keyChoice s.freeIdx)

/-- The state in which the next free choice is another: under `KEY_SELECT = any` the choice was drawn, under `lowest` none
was (R183; notes/assumptions/7.md). -/
def State.countKeyChoice (s : State) : State :=
  { s with
    freeIdx := match s.keySelect with
      | .lowest => s.freeIdx
      | .any => s.freeIdx + 1 }

/-- The random byte of this CXNN, a free value, and the state in which the next draw is another (R153; notes/assumptions/4.md). -/
def State.drawRandom (s : State) : Byte × State := (Config.rnd s.freeIdx, { s with freeIdx := s.freeIdx + 1 })

end Sys2Proof.Machine
end

