-- ==== Sys2Proof/Machine/Alu.lean ====
section
/-! DEFINITION. Register and arithmetic instructions: 6XNN 7XNN 8XY0 8XY1 8XY2 8XY3 8XY4 8XY5 8XY6 8XY7 8XYE CXNN
(42_alu.md). Byte arithmetic wraps modulo 256 (R140); operands are read before any write (40_cycle.md R114). -/

namespace Sys2Proof.Machine

/-- `6XNN`, load immediate (R141). -/
def exec6XNN (x : Reg) (nn : Byte) (s : State) : Host.Outcome State Fault Refusal :=
  .next ((s.writeV x nn).advance 2#16)

/-- `7XNN`, add immediate, no flag (R142). -/
def exec7XNN (x : Reg) (nn : Byte) (s : State) : Host.Outcome State Fault Refusal :=
  .next ((s.writeV x (s.readV x + nn)).advance 2#16)

/-- `8XY0`, move (R143). -/
def exec8XY0 (x y : Reg) (s : State) : Host.Outcome State Fault Refusal :=
  .next ((s.writeV x (s.readV y)).advance 2#16)

/-- `8XY1`, bitwise OR, VF not written as a flag (R144). -/
def exec8XY1 (x y : Reg) (s : State) : Host.Outcome State Fault Refusal :=
  .next ((s.writeV x (s.readV x ||| s.readV y)).advance 2#16)

/-- `8XY2`, bitwise AND, VF not written as a flag (R145). -/
def exec8XY2 (x y : Reg) (s : State) : Host.Outcome State Fault Refusal :=
  .next ((s.writeV x (s.readV x &&& s.readV y)).advance 2#16)

/-- `8XY3`, bitwise exclusive OR, VF not written as a flag (R146). -/
def exec8XY3 (x y : Reg) (s : State) : Host.Outcome State Fault Refusal :=
  .next ((s.writeV x (s.readV x ^^^ s.readV y)).advance 2#16)

/-- `8XY4`, add, VF = carry (R147). -/
def exec8XY4 (x y : Reg) (s : State) : Host.Outcome State Fault Refusal :=
  .next ((s.writeResultFlag x (s.readV x + s.readV y) (carryOut (s.readV x) (s.readV y))).advance 2#16)

/-- `8XY5`, subtract, VF = not borrow (R148). -/
def exec8XY5 (x y : Reg) (s : State) : Host.Outcome State Fault Refusal :=
  .next ((s.writeResultFlag x (s.readV x - s.readV y) (notBorrow (s.readV x) (s.readV y))).advance 2#16)

/-- `8XY6`, shift `V[X]` right by one, VF = old bit 0; `Y` is ignored (R149). -/
def exec8XY6 (x _y : Reg) (s : State) : Host.Outcome State Fault Refusal :=
  .next ((s.writeResultFlag x (s.readV x >>> 1) (shiftedOutRight (s.readV x))).advance 2#16)

/-- `8XY7`, reverse subtract, VF = not borrow (R150). -/
def exec8XY7 (x y : Reg) (s : State) : Host.Outcome State Fault Refusal :=
  .next ((s.writeResultFlag x (s.readV y - s.readV x) (notBorrow (s.readV y) (s.readV x))).advance 2#16)

/-- `8XYE`, shift `V[X]` left by one, VF = old bit 7; `Y` is ignored (R151). -/
def exec8XYE (x _y : Reg) (s : State) : Host.Outcome State Fault Refusal :=
  .next ((s.writeResultFlag x (s.readV x <<< 1) (shiftedOutLeft (s.readV x))).advance 2#16)

/-- `CXNN`, random byte ANDed with the immediate (R153). -/
def execCXNN (x : Reg) (nn : Byte) (s : State) : Host.Outcome State Fault Refusal :=
  .next ((s.drawRandom.2.writeV x (s.drawRandom.1 &&& nn)).advance 2#16)

end Sys2Proof.Machine
end

