-- ==== Sys2Proof/Machine/ControlFlow.lean ====
section
/-! DEFINITION. Control transfer: 00EE 1NNN 2NNN 3XNN 4XNN 5XY0 9XY0 BNNN (41_control_flow.md). -/

namespace Sys2Proof.Machine

/-- `00EE`, return: pop the address of the call and resume behind it, or `InvalidStackOperation(underflow)` (R131). -/
def exec00EE (s : State) : Host.Outcome State Fault Refusal :=
  match s.pop? with
  | some (a, t) => .next (t.jump (a + 2#16))
  | none => .next (s.takeFault (.invalidStackOperation .underflow s.pc))

/-- `1NNN`, jump (R132). -/
def exec1NNN (nnn : BitVec 12) (s : State) : Host.Outcome State Fault Refusal :=
  .next (s.jump (immNNN nnn))

/-- `2NNN`, call: push the address of this instruction and jump, or `InvalidStackOperation(overflow)` (R133). -/
def exec2NNN (nnn : BitVec 12) (s : State) : Host.Outcome State Fault Refusal :=
  match s.push? s.pc with
  | some t => .next (t.jump (immNNN nnn))
  | none => .next (s.takeFault (.invalidStackOperation .overflow s.pc))

/-- `3XNN`, skip if `V[X] = NN` (R134). -/
def exec3XNN (x : Reg) (nn : Byte) (s : State) : Host.Outcome State Fault Refusal :=
  .next (s.skipIf (s.readV x == nn))

/-- `4XNN`, skip if `V[X]` differs from `NN` (R135). -/
def exec4XNN (x : Reg) (nn : Byte) (s : State) : Host.Outcome State Fault Refusal :=
  .next (s.skipIf (s.readV x != nn))

/-- `5XY0`, skip if `V[X] = V[Y]` (R136). -/
def exec5XY0 (x y : Reg) (s : State) : Host.Outcome State Fault Refusal :=
  .next (s.skipIf (s.readV x == s.readV y))

/-- `9XY0`, skip if `V[X]` differs from `V[Y]` (R137). -/
def exec9XY0 (x y : Reg) (s : State) : Host.Outcome State Fault Refusal :=
  .next (s.skipIf (s.readV x != s.readV y))

/-- `BNNN`, jump to `NNN + V[0]`, not reduced to 12 bits (R138). -/
def execBNNN (nnn : BitVec 12) (s : State) : Host.Outcome State Fault Refusal :=
  .next (s.jump (immNNN nnn + zextV (s.readV 0)))

end Sys2Proof.Machine
end

