-- ==== Sys2Proof/Machine/Raster.lean ====
section
/-! DEFINITION. The raster engine: drawing a sprite by XOR with clipping and collision (44_display.md R171 to R175). -/

namespace Sys2Proof.Machine

/-- The display buffer: row `y` holds the pixels `(x, y)`, pixel `x` being bit `x` (R32). -/
abbrev Frame := Vector PixelRow 32

/-- All pixels unlit (R170). -/
def Frame.blank : Frame := Vector.replicate 32 0#64

/-- The pixel `(x, y)`, that is `FB[y*64 + x]`; false off the canvas (R171). -/
def pixelAt (fb : Frame) (x y : Nat) : Bool := if h : y < 32 then fb[y].getLsbD x else false

/-- Flip the pixel `(x, y)` of the canvas. -/
def flipPixel (fb : Frame) (x y : Nat) : Frame :=
  if h : y < 32 then fb.set y (fb[y] ^^^ BitVec.twoPow 64 x) else fb

/-- Bit `7 - c` of a sprite byte, which lands on column `vx + c` (R171). -/
def spriteBit (b : Byte) (c : Nat) : Bool := b.getLsbD (7 - c)

/-- A drawing in progress: the buffer, and whether a set bit has met a lit pixel. -/
structure Drawing where
  fb : Frame
  collision : Bool
deriving DecidableEq, Repr

/-- A set sprite bit at `(x, y)`: dropped off the canvas, else it collides with a lit pixel and flips it (R172, R173). -/
def Drawing.touch (d : Drawing) (x y : Nat) : Drawing :=
  if x < 64 ∧ y < 32 then ⟨flipPixel d.fb x y, d.collision || pixelAt d.fb x y⟩ else d

/-- One bit of a sprite row; only a set bit acts (R172). -/
def Drawing.bit (d : Drawing) (b : Byte) (vx y c : Nat) : Drawing := if spriteBit b c then d.touch (vx + c) y else d

/-- One row byte of a sprite at column `vx` of display row `y`, bit by bit (R172). -/
def Drawing.row (d : Drawing) (b : Byte) (vx y : Nat) : Drawing :=
  (List.range 8).foldl (fun d c => d.bit b vx y c) d

/-- The rows of a sprite, downwards from display row `y` (R171, R172). -/
def Drawing.rows (d : Drawing) (vx y : Nat) : List Byte → Drawing
  | [] => d
  | b :: bs => (d.row b vx y).rows vx (y + 1) bs

/-- Draw the sprite whose row bytes are `sprite` with its top-left corner at `(vx, vy)` (R172). -/
def drawSprite (fb : Frame) (vx vy : Nat) (sprite : List Byte) : Drawing :=
  (Drawing.mk fb false).rows vx vy sprite

end Sys2Proof.Machine
end

