-- ==== Sys2Proof/Machine/Display.lean ====
section
/-! DEFINITION. Display instructions: 00E0 DXYN (44_display.md). -/

namespace Sys2Proof.Machine

/-- `00E0`, clear the display; `changed` is set whatever the buffer held (R170, R176). -/
def exec00E0 (s : State) : Host.Outcome State Fault Refusal :=
  .next ({ s with fb := Frame.blank, changed := true }.advance 2#16)

/-- The `n` row bytes at `I`, `I + 1`, ... (R172). -/
def State.spriteRows (s : State) (n : Fin 16) : List Byte := s.mem.readBytes (s.effAddr 0) n.val

/-- The sprite of a DXYN drawn at `(V[X], V[Y])`, the coordinates being the values before the instruction (R172). -/
def State.drawn (s : State) (x y : Reg) (n : Fin 16) : Drawing :=
  drawSprite s.fb (s.readV x).toNat (s.readV y).toNat (s.spriteRows n)

/-- `DXYN`, draw a sprite, VF = collision, or `OutOfBounds` with nothing drawn (R172 to R176). -/
def execDXYN (x y : Reg) (n : Fin 16) (s : State) : Host.Outcome State Fault Refusal :=
  checkBlock s (s.effAddr 0) n.val
    (({ s with fb := (s.drawn x y n).fb, changed := true }.writeFlag (s.drawn x y n).collision).advance 2#16)

end Sys2Proof.Machine
end

