-- ==== Sys2Proof/Machine/IndexMemory.lean ====
section
/-! DEFINITION. Index register, loads and stores: ANNN FX1E FX29 FX33 FX55 FX65 (43_index_memory.md). -/

namespace Sys2Proof.Machine

/-- `ANNN`, load the index register (R161). -/
def execANNN (nnn : BitVec 12) (s : State) : Host.Outcome State Fault Refusal :=
  .next ({ s with i := immNNN nnn }.advance 2#16)

/-- `FX1E`, add `V[X]` to the index, VF = the unreduced sum exceeds 0xFFF (R162). With `x` = F VF holds the flag under
each `VF_PRIORITY`, since the result goes to `I`; under `result` that is DEDUCED (notes/assumptions/6.md, unsafe). -/
def execFX1E (x : Reg) (s : State) : Host.Outcome State Fault Refusal :=
  .next (({ s with i := s.i + zextV (s.readV x) }.writeFlag (indexOverflow s.i (s.readV x))).advance 2#16)

/-- `FX29`, point the index at glyph `V[X]` (R163). -/
def execFX29 (x : Reg) (s : State) : Host.Outcome State Fault Refusal :=
  .next ({ s with i := glyphAddr (s.readV x) }.advance 2#16)

/-- `FX33`, store the decimal digits of `V[X]` at `I`, `I + 1`, `I + 2`, or `OutOfBounds` with no byte written (R164). -/
def execFX33 (x : Reg) (s : State) : Host.Outcome State Fault Refusal :=
  checkBlock s (s.effAddr 0) 3
    ({ s with mem := s.mem.writeBytes (s.effAddr 0) (bcdDigits (s.readV x)) }.advance 2#16)

/-- `FX55`, store V0 to VX at `I`, `I + 1`, ... and advance `I`, or `OutOfBounds` with nothing written (R165). -/
def execFX55 (x : Reg) (s : State) : Host.Outcome State Fault Refusal :=
  checkBlock s (s.effAddr 0) (blockCount x)
    ({ s with mem := s.mem.writeBytes (s.effAddr 0) (s.regsUpTo x), i := s.indexPast x }.advance 2#16)

/-- `FX65`, load V0 to VX from `I`, `I + 1`, ... and advance `I`, or `OutOfBounds` with nothing written (R166). -/
def execFX65 (x : Reg) (s : State) : Host.Outcome State Fault Refusal :=
  checkBlock s (s.effAddr 0) (blockCount x)
    ({ s with v := s.loadedRegs x, i := s.indexPast x }.advance 2#16)

end Sys2Proof.Machine
end

