-- ==== Sys2Proof/Machine/KeysTimers.lean ====
section
/-! DEFINITION. Key and timer instructions: EX9E EXA1 FX07 FX0A FX15 FX18 (45_keys_timers.md). -/

namespace Sys2Proof.Machine

/-- Skip when the key `V[X]` names is at the level `down`, or `InvalidKeyIndex` when it names none (R181, R182). -/
def State.skipOnKey (s : State) (x : Reg) (down : Bool) : State :=
  match keyIndex? (s.readV x) with
  | some k => s.skipIf (s.keyDown k == down)
  | none => s.takeFault (.invalidKeyIndex (s.readV x) s.pc)

/-- `EX9E`, skip if the key `V[X]` is pressed (R181). -/
def execEX9E (x : Reg) (s : State) : Host.Outcome State Fault Refusal := .next (s.skipOnKey x true)

/-- `EXA1`, skip if the key `V[X]` is not pressed (R182). -/
def execEXA1 (x : Reg) (s : State) : Host.Outcome State Fault Refusal := .next (s.skipOnKey x false)

/-- `FX07`, read the delay timer as the previous cycle left it (R184). -/
def execFX07 (x : Reg) (s : State) : Host.Outcome State Fault Refusal :=
  .next ((s.writeV x s.dt).advance 2#16)

/-- `FX0A`, wait for a key: with none pressed nothing is written and `pc` stays, else the index of the key that
`KEY_SELECT` picks is stored (R122, R183). -/
def execFX0A (x : Reg) (s : State) : Host.Outcome State Fault Refusal :=
  match s.selectKey with
  | some k => .next ((s.countKeyChoice.writeV x (BitVec.ofNat 8 k.val)).advance 2#16)
  | none => .next s

/-- `FX15`, set the delay timer (R185). -/
def execFX15 (x : Reg) (s : State) : Host.Outcome State Fault Refusal :=
  .next ({ s with dt := s.readV x }.advance 2#16)

/-- `FX18`, set the sound timer (R186). -/
def execFX18 (x : Reg) (s : State) : Host.Outcome State Fault Refusal :=
  .next ({ s with st := s.readV x }.advance 2#16)

end Sys2Proof.Machine
end

