-- ==== Sys2Proof/Machine/HostPorts.lean ====
section
/-! DEFINITION. The host's ports, the run control and reset (60_exceptions.md R220 to R231; 70_reset_and_hazards.md R240 to
R245). -/

namespace Sys2Proof.Machine

/-! ### Outputs -/

/-- The audio port: 1 exactly while `ST` is not 0 (R224). -/
def State.beep (s : State) : Bool := s.st != 0#8

/-- The display port, for coordinates on the canvas (R223). -/
def State.getPixel (s : State) (x : Fin 64) (y : Fin 32) : Bool := pixelAt s.fb x.val y.val

/-- The numeric code of a latched fault, 0 when none is latched (R200). -/
def faultCode : Option Fault → Nat
  | none => 0
  | some (.outOfBounds _ _) => 4
  | some (.unknownOpcode _ _) => 5
  | some (.invalidStackOperation _ _) => 6
  | some (.invalidKeyIndex _ _) => 7

/-- The numeric code of a reset refusal (R200). -/
def refusalCode : ResetRefusal → Nat
  | .noRomLoaded => 1
  | .invalidState => 2
  | .capacityExceeded _ => 3

/-! ### Reset -/

/-- The check of the image that reset is to load: no image, an empty one, one too long, in this order (R57, R242). -/
def resetImage : Option (List Byte) → Except ResetRefusal (List Byte)
  | none => .error .noRomLoaded
  | some [] => .error .invalidState
  | some (b :: bs) =>
    if Config.romMax < (b :: bs).length then .error (.capacityExceeded (b :: bs).length) else .ok (b :: bs)

/-- `MEM` after a reset: filled with 0x00, then the table `font`, then the image from 0x200 (R57 to R59, R240). -/
def Memory.afterReset (font : Config.FontTable) (rom : List Byte) : Memory :=
  (⟨font, []⟩ : Memory).writeBytes Config.romBase rom

/-- A successful reset with the image `rom`: every item of R41; `running`, `paused` and what is the host's stay (R240). -/
def State.resetWith (s : State) (rom : List Byte) : State :=
  { s with
    mem := Memory.afterReset s.mem.font rom
    v := Vector.replicate 16 0#8
    i := 0#16
    sp := 0
    stk := Vector.replicate 16 0#16
    pc := 0x0200#16
    dt := 0#8
    st := 0#8
    fb := Frame.blank
    changed := false
    keys := 0#16
    fault := none
    resetPending := false
    initialized := true }

/-- The contents of R20 to R34 become unspecified: free values, another each time (R42, R242; notes/assumptions/9.md). -/
def State.forgetContents (s : State) : State :=
  { s with
    v := (Config.unspecified s.freeIdx).v
    i := (Config.unspecified s.freeIdx).i
    pc := (Config.unspecified s.freeIdx).pc
    sp := (Config.unspecified s.freeIdx).sp
    stk := (Config.unspecified s.freeIdx).stk
    dt := (Config.unspecified s.freeIdx).dt
    st := (Config.unspecified s.freeIdx).st
    mem := Memory.ofCells s.mem.font (Config.unspecified s.freeIdx).mem
    fb := (Config.unspecified s.freeIdx).fb
    changed := (Config.unspecified s.freeIdx).changed
    keys := (Config.unspecified s.freeIdx).keys
    freeIdx := s.freeIdx + 1 }

/-- A refused reset: nothing is initialised, the refusal is the answer to the host, the contents are unspecified (R208,
R242). -/
def State.refuseReset (s : State) (why : ResetRefusal) : State :=
  { s.forgetContents with initialized := false, answers := s.answers ++ [.resetRefused why] }

/-- The reset of R240 on the image last loaded, or its refusal (R241, R242). -/
def State.performReset (s : State) : State :=
  match resetImage s.rom with
  | .ok rom => s.resetWith rom
  | .error why => s.refuseReset why

/-- The reset that `run` or the run loop performs: its refusal also clears `running` (R228, R229, R242). -/
def State.performLoopReset (s : State) : State :=
  { s.performReset with running := s.performReset.running && s.performReset.initialized }

/-- The deferred reset: `initialized` is forced to 0, the reset performed, `reset_pending` cleared (R228). -/
def State.honourReset (s : State) : State :=
  { ({ s with initialized := false } : State).performLoopReset with resetPending := false }

/-- The machine with the arguments `FONT`, `VF_PRIORITY` and `KEY_SELECT` at power-on: the run-control flags 0, no fault, no
image, the rest unspecified (R6, R35, R36, R42, R243). DESIGN CHOICE: `CYCLE_DELAY_MS`, of which the spec gives no value, is
0 (notes/assumptions/13.md, unsafe for that value). -/
def State.powerOn (font : Config.FontTable) (p : Config.VfPriority) (k : Config.KeySelect) : State :=
  { ({ State.reset with mem := ⟨font, []⟩, vfPriority := p, keySelect := k } : State).forgetContents with
    initialized := false }

/-! ### Commands -/

/-- One command of the host, between two cycles (R221 to R231). -/
def State.hostDo (s : State) : HostCmd → State
  | .pressKey k => { s with keys := s.keys ||| BitVec.twoPow 16 k.val }
  | .releaseKey k => { s with keys := s.keys &&& ~~~ BitVec.twoPow 16 k.val }
  | .loadRom bytes => { s with rom := some bytes }
  | .init => if s.initialized then s else s.performReset
  | .run =>
    if s.running || s.fault.isSome then s
    else if s.initialized then { s with running := true }
    else ({ s with running := true } : State).performLoopReset
  | .pause => { s with paused := true }
  | .unpause => { s with paused := false }
  | .reset =>
    if s.running then { s with resetPending := true } else ({ s with initialized := false } : State).performReset
  | .stop => { s with running := false, initialized := false }
  | .setCycleDelayMs ms => { s with cycleDelayMs := ms }
  | .setCycleSpeedHz hz =>
    if hz = 0 then { s with answers := s.answers ++ [.zeroHzRefused] } else { s with cycleDelayMs := 1000 / hz }

/-- The boundary before a step: the outputs of the last step are taken back and the commands the host gives at this
boundary take effect, one after another (R221). -/
def State.hostPhase (s : State) : State :=
  (s.inputs.headD []).foldl State.hostDo { s with inputs := s.inputs.tail, strobes := [], answers := [] }

/-! ### The states of the run control -/

/-- The states of the run control (R226). -/
inductive RunState where
  | uninitialized
  | initialized
  | running
  | paused
  | faulted
deriving DecidableEq, Repr

/-- The state of the run control that the flags and the latch name; Stopped is Uninitialized-equivalent (R226). DESIGN
CHOICE: the names of R226 are not exclusive. A machine with a latched fault is named Faulted here also when a `stop` has
made it Stopped and Uninitialized as well. ResetPending, the name of a machine whose flag `reset_pending` is 1, is never
given: R226 lets such a machine be Running or Paused at once, and its other flags name it here
(notes/assumptions/24.md, safe: no operation reads the name). -/
def State.runState (s : State) : RunState :=
  if s.fault.isSome then .faulted
  else if s.running && s.paused then .paused
  else if !s.initialized then .uninitialized
  else if s.running then .running
  else .initialized

end Sys2Proof.Machine
end

