-- ==== Sys2Proof/Machine/Cycle.lean ====
section
/-! DEFINITION. The cycle (fetch, decode, execute, commit, timers, notify) and the sequencer that performs it
(40_cycle.md R110, R117, R120; 60_exceptions.md R226 to R230). -/

namespace Sys2Proof.Machine

/-- What follows the execute stage: after a fault nothing, else the timers and the strobes (R110, R116, R117, R119). -/
def State.finishCycle (s : State) : State := if s.fault.isSome then s else s.tickTimers.notify

/-- Execute a decoded instruction and finish the cycle (R110 steps 3 to 6). -/
def executeStage (i : Instr) (s : State) : Host.Outcome State Fault Refusal :=
  match exec i s with
  | .next t => .next t.finishCycle
  | .fault r => .fault r
  | .refused r => .refused r

/-- One cycle (R110): a fault in fetch or decode is taken like one in execute (R117, R205). -/
def cycle (s : State) : Host.Outcome State Fault Refusal :=
  match s.fetch with
  | .error f => .next (s.takeFault f)
  | .ok op =>
    match decodeWord op with
    | none => .next (s.takeFault (.unknownOpcode op s.pc))
    | some i => executeStage i s

/-- The condition under which a cycle is performed (R120). -/
def State.cycleEnabled (s : State) : Bool :=
  s.initialized && s.running && !s.paused && !s.resetPending && s.fault.isNone

/-- A pending reset is honoured at the top of the loop, once the machine is not paused (R228). -/
def State.resetDue (s : State) : Bool := s.running && !s.paused && s.resetPending

/-- The sequencer at a cycle boundary: the pending reset, or a cycle, or nothing (R120, R228, R230). -/
def sequencer (s : State) : Host.Outcome State Fault Refusal :=
  if s.resetDue then .next s.honourReset
  else if s.cycleEnabled then cycle s
  else .next s

end Sys2Proof.Machine
end

