-- ==== Sys2Proof/Machine/Step.lean ====
section
/-! DEFINITION. One step of the machine: what the host does at this boundary, then what the sequencer does (40_cycle.md R110,
R120; 60_exceptions.md R221). -/

namespace Sys2Proof.Machine

/-- One step: the host's commands of this boundary, then the pending reset, a cycle, or nothing. -/
def step (s : State) : Host.Outcome State Fault Refusal := sequencer s.hostPhase

/-- `s` with the instruction word `w`, numbered as the opcode table numbers it, stored where the next step fetches it, high
byte first, and the run control as the host's `run` leaves a freshly reset machine, with no further command of the host
waiting, so that the very next step runs that word (R52, R120; notes/assumptions/2.md). -/
def State.withFetchWord (s : State) (nbits w : Nat) : State :=
  { s with
    mem := s.mem.writeBytes s.pc.toNat [highByte (tableWord nbits w), lowByte (tableWord nbits w)]
    initialized := true
    running := true
    paused := false
    resetPending := false
    fault := none
    inputs := [] }

end Sys2Proof.Machine
end

