-- ==== Sys2Proof/Safety.lean ====
section
/-! DEFINITION. What a safe run is, the invariant of the machine, and the spec's whole-machine tables, written out from its
rules and not from the meanings: which instruction faults when, what it writes, where `pc` goes, which image a reset
refuses. -/

namespace Sys2Proof.Machine

/-- A state of a safe run: no fault is latched, which is what the spec's "well-formed ROM" keeps (00_scope.md R12). -/
def State.safe (s : State) : Bool := s.fault.isNone

/-- The invariant of the machine at a cycle boundary. -/
structure State.Inv (s : State) : Prop where
  /-- Memory is in its canonical form. -/
  mem_wf : s.mem.wf = true
  /-- Between cycles of an initialised machine `changed` is 0 (R33). -/
  changed_clear : s.initialized = true → s.changed = false
  /-- While a fault is latched the machine does not run (R36, R206, R207). -/
  fault_stops : s.fault.isSome = true → s.running = false
  /-- A running machine is initialised (R226, R228, R229, R231). -/
  running_initialized : s.running = true → s.initialized = true
  /-- `pc` is at most 0x10FE (R27). -/
  pc_bound : s.initialized = true → s.pc.toNat ≤ 0x10FE
  /-- A stack entry is the address of a 2NNN that was fetched, or the reset value 0 (R28, R131). -/
  stk_bound : s.initialized = true → ∀ k : Fin 16, s.stk[k.val].toNat ≤ 0x0FFE

/-! ### Tables of the spec -/

/-- The fault an instruction raises in a state, and `none` where it executes normally (60_exceptions.md R201, R203, R204,
R205). -/
def faultOf (i : Instr) (s : State) : Option Fault :=
  match i with
  | .op00EE => if s.sp.val = 0 then some (.invalidStackOperation .underflow s.pc) else none
  | .op2NNN _ => if s.sp.val = 16 then some (.invalidStackOperation .overflow s.pc) else none
  | .opEX9E x | .opEXA1 x => if 15 < (s.readV x).toNat then some (.invalidKeyIndex (s.readV x) s.pc) else none
  | .opDXYN _ _ n =>
    if 0 < n.val ∧ 4096 ≤ s.i.toNat + n.val - 1 then some (.outOfBounds (max s.i.toNat 4096) s.pc) else none
  | .opFX33 _ => if 4096 ≤ s.i.toNat + 2 then some (.outOfBounds (max s.i.toNat 4096) s.pc) else none
  | .opFX55 x | .opFX65 x =>
    if 4096 ≤ s.i.toNat + x.val then some (.outOfBounds (max s.i.toNat 4096) s.pc) else none
  | _ => none

/-- The next `pc` of an instruction that executes normally, sums modulo 65536 (10_state.md R25, R27). -/
def nextPc (i : Instr) (s : State) : Nat :=
  match i with
  | .op1NNN nnn | .op2NNN nnn => nnn.toNat
  | .opBNNN nnn => nnn.toNat + (s.readV 0).toNat
  | .op00EE => ((if h : 0 < s.sp.val then s.stk[s.sp.val - 1] else 0#16).toNat + 2) % 65536
  | .op3XNN x nn => (s.pc.toNat + if (s.readV x).toNat = nn.toNat then 4 else 2) % 65536
  | .op4XNN x nn => (s.pc.toNat + if (s.readV x).toNat = nn.toNat then 2 else 4) % 65536
  | .op5XY0 x y => (s.pc.toNat + if (s.readV x).toNat = (s.readV y).toNat then 4 else 2) % 65536
  | .op9XY0 x y => (s.pc.toNat + if (s.readV x).toNat = (s.readV y).toNat then 2 else 4) % 65536
  | .opEX9E x => (s.pc.toNat + if s.keys.getLsbD (s.readV x).toNat then 4 else 2) % 65536
  | .opEXA1 x => (s.pc.toNat + if s.keys.getLsbD (s.readV x).toNat then 2 else 4) % 65536
  | .opFX0A _ => if s.keys = 0#16 then s.pc.toNat else (s.pc.toNat + 2) % 65536
  | _ => (s.pc.toNat + 2) % 65536

/-- The instruction writes `V[z]`, as a result, in a range or as a flag; FX0A only when a key is pressed (the write rows of
10_state.md R21). -/
def writesReg (i : Instr) (s : State) (z : Reg) : Bool :=
  match i with
  | .op6XNN x _ | .op7XNN x _ | .op8XY0 x _ | .op8XY1 x _ | .op8XY2 x _ | .op8XY3 x _ | .opCXNN x _ | .opFX07 x => z == x
  | .op8XY4 x _ | .op8XY5 x _ | .op8XY6 x _ | .op8XY7 x _ | .op8XYE x _ => z == x || z == 15
  | .opFX0A x => z == x && s.keys != 0#16
  | .opFX65 x => decide (z ≤ x)
  | .opDXYN _ _ _ | .opFX1E _ => z == 15
  | _ => false

/-- The instruction writes `I` (10_state.md R23). -/
def writesIndex : Instr → Bool
  | .opANNN _ | .opFX1E _ | .opFX29 _ | .opFX55 _ | .opFX65 _ => true
  | _ => false

/-- The addresses an instruction stores to: 3 bytes at `I`, `X + 1` bytes at `I`, or none (20_memory.md R50, R61). -/
def storedBytes : Instr → Nat
  | .opFX33 _ => 3
  | .opFX55 x => x.val + 1
  | _ => 0

/-- The instruction writes the display buffer and sets `changed` (10_state.md R32, 44_display.md R176). -/
def writesDisplay : Instr → Bool
  | .op00E0 | .opDXYN _ _ _ => true
  | _ => false

/-- The instruction moves the stack pointer (10_state.md R28, R29). -/
def movesStack : Instr → Bool
  | .op00EE | .op2NNN _ => true
  | _ => false

/-- The refusal of a reset on the image last loaded, none on an image of 1 to 3584 bytes (70_reset_and_hazards.md R242). -/
def refusalOf : Option (List Byte) → Option ResetRefusal
  | none => some .noRomLoaded
  | some rom =>
    if rom.length = 0 then some .invalidState
    else if 3584 < rom.length then some (.capacityExceeded rom.length)
    else none

/-- Where an executing DXYN has a set sprite bit: the mask `S` of 44_display.md R175, that is whether `a - V[X]` is in 0
to 7, `b - V[Y]` in 0 to `N - 1` and bit `7 - (a - V[X])` of `MEM[I + b - V[Y]]` is 1. -/
def State.spriteCovers (s : State) (x y : Reg) (n : Fin 16) (a b : Nat) : Prop :=
  (s.readV x).toNat ≤ a ∧ a < (s.readV x).toNat + 8 ∧ (s.readV y).toNat ≤ b ∧ b < (s.readV y).toNat + n.val ∧
    (s.mem.read (s.i.toNat + (b - (s.readV y).toNat))).getLsbD (7 - (a - (s.readV x).toNat)) = true

end Sys2Proof.Machine
end

