-- ==== Sys2Proof/WellFormed.lean ====
section
/-! DEFINITION. Well-formedness of an instruction: every operand fits the field of the opcode that carries it
(30_encoding.md R81, R83). The types of `Instr` already bound every operand, so that no ill-formed instruction can be
built; the check says so field by field, on plain numbers. -/

namespace Sys2Proof

/-- An operand as a plain number beside the width in bits of the opcode field that carries it. -/
structure Operand where
  /-- The operand's value. -/
  value : Nat
  /-- The width of its field (R81): 4 for `X`, `Y` and `N`, 8 for `NN`, 12 for `NNN`. -/
  width : Nat
deriving DecidableEq, Repr

/-- The one check: the value fits its field. -/
def Operand.fits (o : Operand) : Bool := o.value < 2 ^ o.width

/-- A register selector as an operand of a 4-bit field. -/
def Operand.ofReg (x : Reg) : Operand := ⟨x.val, 4⟩

/-- The operands of an instruction, in the order of the opcode's digits (R82). -/
def Instr.operands : Instr → List Operand
  | .op00E0 | .op00EE => []
  | .op1NNN nnn | .op2NNN nnn | .opANNN nnn | .opBNNN nnn => [⟨nnn.toNat, 12⟩]
  | .op3XNN x nn | .op4XNN x nn | .op6XNN x nn | .op7XNN x nn | .opCXNN x nn => [.ofReg x, ⟨nn.toNat, 8⟩]
  | .op5XY0 x y | .op8XY0 x y | .op8XY1 x y | .op8XY2 x y | .op8XY3 x y | .op8XY4 x y | .op8XY5 x y | .op8XY6 x y
  | .op8XY7 x y | .op8XYE x y | .op9XY0 x y => [.ofReg x, .ofReg y]
  | .opDXYN x y n => [.ofReg x, .ofReg y, ⟨n.val, 4⟩]
  | .opEX9E x | .opEXA1 x | .opFX07 x | .opFX0A x | .opFX15 x | .opFX18 x | .opFX1E x | .opFX29 x | .opFX33 x
  | .opFX55 x | .opFX65 x => [.ofReg x]

/-- Every operand fits its field. -/
def Instr.wellFormed (i : Instr) : Bool := i.operands.all Operand.fits

end Sys2Proof
end

