-- ==== Sys2Proof/Certificates/Slice0/Obligations.lean ====
section
/-! DEFINITION. The statements for the provers. Each `Obligations.<Name>` formalises the rules of spec/ that OBLIGATIONS.json
cites for it. A statement holds in every state that meets its hypotheses, reachable or not. -/

open Sys2Proof Sys2Proof.Machine

/-- For every well-formed instruction, with every operand at every value its field admits, its opcode word decodes to it, and its two bytes, high byte first, decode to it and leave the bytes that follow. (R80, R81, R82, R84, R86.) -/
def Obligations.DecodeOfEncodeIsTheInstruction : Prop :=
  ∀ i : Instr, i.wellFormed = true →
    decodeWord (encode i) = some i ∧ ∀ rest : List Byte, decode (encodeBytes i ++ rest) = .ok (i, rest)

/-- Every word that decodes to an instruction is the opcode word of that instruction: no bit of a word is dropped, the ignored Y field of 8XY6 and 8XYE included. (R81, R84, R86.) -/
def Obligations.EncodeOfDecodeIsTheWord : Prop :=
  ∀ (op : Word) (i : Instr), decodeWord op = some i → encode i = op

/-- If a word decodes to an instruction, the word masked with that row's mask is that row's match value; and a word that matches the row of some instruction decodes to an instruction of that row. The 34 match and mask values are those of rule R84 (Instr.pattern); the last digits 1, 2, 3, 6 and 7 of the 8XY rows are PRESUMED (G5; log entry 17). (R84, R86.) -/
def Obligations.DecodeSelectsTheMatchingRow : Prop :=
  ∀ op : Word,
    (∀ i : Instr, decodeWord op = some i → op &&& i.pattern.mask = i.pattern.value) ∧
      ∀ j : Instr, op &&& j.pattern.mask = j.pattern.value → ∃ i : Instr, decodeWord op = some i ∧ i.pattern = j.pattern

/-- The opcode map has 34 different patterns, and no 16-bit word matches two of them. The last digits 1, 2, 3, 6 and 7 of the 8XY rows are PRESUMED (G5; log entry 17). (R84, R85.) -/
def Obligations.PatternsArePairwiseDisjoint : Prop :=
  opcodeMap.length = 34 ∧ opcodeMap.Nodup ∧
    ∀ op : Word, ∀ p ∈ opcodeMap, ∀ q ∈ opcodeMap, p.matches op = true → q.matches op = true → p = q

/-- A word does not decode exactly when it is 0NNN other than 00E0 and 00EE, 5XYn or 9XYn with n not 0, 8XYn with n in 8, 9, A, B, C, D, F, EXkk with kk not 9E or A1, or FXkk with kk not one of the nine sub-opcodes. That 1, 2, 3, 6 and 7 are digits of 8XY instructions and not in this list is PRESUMED: the source gives those five without digits, and the spec takes the digits from general knowledge (R84, G5; log entry 17). (R87, R88.) -/
def Obligations.WordsThatAreNotInstructions : Prop :=
  ∀ op : Word, decodeWord op = none ↔
    (op.toNat < 0x1000 ∧ op.toNat ≠ 0x00E0 ∧ op.toNat ≠ 0x00EE) ∨
    (op.toNat / 0x1000 = 0x5 ∧ op.toNat % 16 ≠ 0) ∨
    (op.toNat / 0x1000 = 0x8 ∧ op.toNat % 16 ∈ [0x8, 0x9, 0xA, 0xB, 0xC, 0xD, 0xF]) ∨
    (op.toNat / 0x1000 = 0x9 ∧ op.toNat % 16 ≠ 0) ∨
    (op.toNat / 0x1000 = 0xE ∧ op.toNat % 256 ∉ [0x9E, 0xA1]) ∨
    (op.toNat / 0x1000 = 0xF ∧ op.toNat % 256 ∉ [0x07, 0x0A, 0x15, 0x18, 0x1E, 0x29, 0x33, 0x55, 0x65])

/-- A word of each family, its digits written from the patterns of R84 with the fields of R81, decodes to the instruction it stands for; the bytes 00 EE, the high byte first, decode to the return. That the digit 7 of 8XY is reverse subtract is PRESUMED: the spec takes it from general knowledge (G5; log entry 17). (R81, R84.) -/
def Obligations.WordsOfEveryFamilyDecode : Prop :=
  decode [0x00#8, 0xEE#8] = .ok (.op00EE, []) ∧
    decodeWord 0x2ABC#16 = some (.op2NNN 0xABC#12) ∧
    decodeWord 0x9120#16 = some (.op9XY0 1 2) ∧
    decodeWord 0x8DE7#16 = some (.op8XY7 0xD 0xE) ∧
    decodeWord 0xC30F#16 = some (.opCXNN 3 0x0F#8) ∧
    decodeWord 0xFB65#16 = some (.opFX65 0xB) ∧
    decodeWord 0xD12F#16 = some (.opDXYN 1 2 0xF) ∧
    decodeWord 0xE3A1#16 = some (.opEXA1 3) ∧
    decodeWord 0x0000#16 = none

/-- When, after the host's commands of this boundary (hostPhase), a cycle is enabled and the two bytes at pc, both inside the memory, decode to a well-formed instruction, the step is that instruction's exec on that state, followed by the timer and notify stages unless the instruction took a fault. With no command waiting the host phase only clears the outputs of the last step. (R110, R112, R113, R116, R117, R119, R120, R221.) -/
def Obligations.StepRunsTheDecodedInstruction : Prop :=
  (∀ (s : State) (i : Instr), i.wellFormed = true → s.hostPhase.cycleEnabled = true → s.hostPhase.pc.toNat + 1 < 4096 →
    decode [s.hostPhase.mem.read s.hostPhase.pc.toNat, s.hostPhase.mem.read (s.hostPhase.pc.toNat + 1)] = .ok (i, []) →
    step s =
      match exec i s.hostPhase with
      | .next t => .next (if t.fault = none then t.tickTimers.notify else t)
      | .fault r => .fault r
      | .refused r => .refused r) ∧
  ∀ s : State, s.inputs = [] → s.hostPhase = { s with strobes := [], answers := [] }

/-- With pc at 4096 or above the fetch raises OutOfBounds(pc); with pc = 4095 it raises OutOfBounds(4096); else it gives MEM[pc] * 256 + MEM[pc + 1], at any alignment. It answers a word or a fault and no state: it changes none. (R52, R111.) -/
def Obligations.FetchReadsTwoBytesOrFaults : Prop :=
  ∀ s : State,
    (4096 ≤ s.pc.toNat → s.fetch = .error (.outOfBounds s.pc.toNat s.pc)) ∧
    (s.pc.toNat = 4095 → s.fetch = .error (.outOfBounds 4096 s.pc)) ∧
    (s.pc.toNat < 4095 → ∃ op : Word, s.fetch = .ok op ∧
      op.toNat = (s.mem.read s.pc.toNat).toNat * 256 + (s.mem.read (s.pc.toNat + 1)).toNat)

/-- With a cycle enabled: at pc of 4095 or above the step latches OutOfBounds(max(pc, 4096)), else, when the word at pc matches no pattern, UnknownOpcode(word, pc); in both cases running is cleared and every other field is as the host's commands left it. (R87, R110, R117, R201, R202, R205.) -/
def Obligations.FetchAndDecodeFaultsAreTaken : Prop :=
  ∀ s : State, s.hostPhase.cycleEnabled = true →
    (4095 ≤ s.hostPhase.pc.toNat →
      step s = .next { s.hostPhase with
        fault := some (.outOfBounds (max s.hostPhase.pc.toNat 4096) s.hostPhase.pc), running := false }) ∧
    ∀ op : Word, s.hostPhase.pc.toNat < 4095 →
      op = joinBytes (s.hostPhase.mem.read s.hostPhase.pc.toNat) (s.hostPhase.mem.read (s.hostPhase.pc.toNat + 1)) →
      decodeWord op = none →
      step s = .next { s.hostPhase with fault := some (.unknownOpcode op s.hostPhase.pc), running := false }

/-- For every instruction and every state: where the spec names a fault (faultOf: 00EE at SP 0, 2NNN at SP 16, EX9E and EXA1 with V[X] above 15, DXYN FX33 FX55 FX65 with a byte at 4096 or above) exec answers the state with that fault latched, running cleared and all else, pc included, unchanged; everywhere else exec answers a next state with no new fault whose pc is the one rule R25 gives (nextPc). (R25, R201, R203, R204, R205, R206.) -/
def Obligations.InstructionsExecuteOrFaultByTheTables : Prop :=
  ∀ (i : Instr) (s : State),
    (∀ f : Fault, faultOf i s = some f → exec i s = .next { s with fault := some f, running := false }) ∧
    (faultOf i s = none →
      ∃ t : State, exec i s = .next t ∧ t.fault = s.fault ∧ t.running = s.running ∧ t.pc.toNat = nextPc i s)

/-- Whenever a cycle is performed and the state after it holds a fault, that state is the one before the cycle (after the host's commands) with only the latch set and running cleared, whatever the stage or the instruction that raised it: no register, memory byte, pixel, timer, key or flag changes and no strobe is given; the record holds the address of the faulting instruction. (R36, R117, R205, R206.) -/
def Obligations.FaultingCyclesArePrecise : Prop :=
  ∀ s t : State, s.hostPhase.cycleEnabled = true → step s = .next t → t.fault ≠ none →
    t = { s.hostPhase with fault := t.fault, running := false } ∧ t.strobes = [] ∧
      ((∃ a, t.fault = some (.outOfBounds a s.hostPhase.pc)) ∨ (∃ op, t.fault = some (.unknownOpcode op s.hostPhase.pc)) ∨
        (∃ k, t.fault = some (.invalidStackOperation k s.hostPhase.pc)) ∨
          ∃ x, t.fault = some (.invalidKeyIndex x s.hostPhase.pc))

/-- In a stopped machine with a fault latched every host command leaves the latch and running as they are, or is a successful reset with the loaded image; and a step with no command waiting performs no cycle and changes nothing but the outputs. (R207.) -/
def Obligations.FaultLatchIsClearedOnlyByReset : Prop :=
  ∀ (s : State) (f : Fault), s.fault = some f → s.running = false →
    (∀ c : HostCmd,
      ((s.hostDo c).fault = some f ∧ (s.hostDo c).running = false) ∨
        ∃ rom : List Byte, s.rom = some rom ∧ 1 ≤ rom.length ∧ rom.length ≤ 3584 ∧ s.hostDo c = s.resetWith rom) ∧
    (s.inputs = [] → step s = .next { s with strobes := [], answers := [] })

/-- For every state, reachable or not, the step answers a next state, never the host's fault or refusal outcome: a fault of the machine is taken as the next state R206 describes, and a machine that performs no cycle still has a boundary at which the host acts (R221). Both are the model's choices: that a fault is a next state is log entry 8, that an idle, stopped or uninitialised machine has a next state is log entry 22 (the spec's U11 calls the uninitialised machine stuck: it performs no cycle). (R206, R221.) -/
def Obligations.EveryStepAnswersANextState : Prop :=
  ∀ s : State, ∃ t : State, step s = .next t

/-- Whatever instruction executes: the keys, initialized, paused, reset_pending, the loaded image, CYCLE_DELAY_MS, the arguments FONT, VF_PRIORITY and KEY_SELECT, the waiting commands and the outputs stay as they are; and running and the fault latch stay too, unless the instruction takes a fault. (R6, R34, R36, R37, R39, R66.) -/
def Obligations.InstructionsLeaveTheHostsStateAlone : Prop :=
  ∀ (i : Instr) (s t : State), exec i s = .next t →
    t.keys = s.keys ∧ t.initialized = s.initialized ∧ t.paused = s.paused ∧ t.resetPending = s.resetPending ∧
      t.rom = s.rom ∧ t.cycleDelayMs = s.cycleDelayMs ∧ t.mem.font = s.mem.font ∧ t.vfPriority = s.vfPriority ∧
      t.keySelect = s.keySelect ∧ t.inputs = s.inputs ∧ t.strobes = s.strobes ∧ t.answers = s.answers ∧
      (faultOf i s = none → t.fault = s.fault ∧ t.running = s.running)

/-- For every instruction and state, a register that the write rows of rule R21 do not name for the instruction (its result register, its range, VF for the seven flag writers; FX0A only with a key pressed) reads after it as before, whether or not it faults. (R20, R21, R22, R206.) -/
def Obligations.OnlyDestinationRegistersChange : Prop :=
  ∀ (i : Instr) (s t : State) (z : Reg), exec i s = .next t → writesReg i s z = false → t.readV z = s.readV z

/-- For every instruction and state: I changes only under ANNN FX1E FX29 FX55 FX65; a byte of memory reads as before outside the bytes stored by FX33 (3 at I) and FX55 (X + 1 at I); the display and changed change only under 00E0 and DXYN; SP only under 00EE and 2NNN, the stack entries only under 2NNN; DT only under FX15, ST only under FX18; a free value is drawn only by CXNN and, under KEY_SELECT = any, by FX0A. The statement on memory is for memory in canonical form, which every step keeps. (R23, R28, R29, R30, R32, R33, R50, R54, R153, R183.) -/
def Obligations.OnlyNamedInstructionsWriteEachResource : Prop :=
  ∀ (i : Instr) (s t : State), exec i s = .next t →
    (writesIndex i = false → t.i = s.i) ∧
    (s.mem.wf = true → ∀ a : Nat, ¬(s.i.toNat ≤ a ∧ a < s.i.toNat + storedBytes i) → t.mem.read a = s.mem.read a) ∧
    (writesDisplay i = false → t.fb = s.fb ∧ t.changed = s.changed) ∧
    (movesStack i = false → t.sp = s.sp) ∧
    ((∀ nnn, i ≠ .op2NNN nnn) → t.stk = s.stk) ∧
    ((∀ x, i ≠ .opFX15 x) → t.dt = s.dt) ∧
    ((∀ x, i ≠ .opFX18 x) → t.st = s.st) ∧
    ((∀ x nn, i ≠ .opCXNN x nn) → (s.keySelect = .lowest ∨ ∀ x, i ≠ .opFX0A x) → t.freeIdx = s.freeIdx)

/-- When a cycle is performed on a state whose changed is 0 (as it is between cycles) and its instruction raises no fault, the step gives the strobes display_changed, cycle_done for 00E0 and DXYN and cycle_done alone for every other instruction, a blocked FX0A included, and changed is 0 afterwards; a step whose cycle faults gives no strobe. (R119.) -/
def Obligations.CompletedCyclesGiveTheirStrobes : Prop :=
  (∀ (s : State) (op : Word) (i : Instr), s.hostPhase.cycleEnabled = true → s.hostPhase.changed = false →
    s.hostPhase.fetch = .ok op → decodeWord op = some i → faultOf i s.hostPhase = none →
    ∃ t : State, step s = .next t ∧ t.changed = false ∧ t.fault = none ∧
      t.strobes = if writesDisplay i then [.displayChanged, .cycleDone] else [.cycleDone]) ∧
  ∀ s t : State, s.hostPhase.cycleEnabled = true → step s = .next t → t.fault ≠ none → t.strobes = []

/-- When a cycle is performed and its instruction raises no fault: DT after the step is max(v - 1, 0), where v is V[X] for FX15 X and the old DT for every other instruction; ST likewise with FX18; and FX07 X leaves in V[X] the DT before this cycle's decrement. (R116.) -/
def Obligations.TimersCountDownEveryCompletedCycle : Prop :=
  ∀ (s : State) (op : Word) (i : Instr), s.hostPhase.cycleEnabled = true → s.hostPhase.fetch = .ok op →
    decodeWord op = some i → faultOf i s.hostPhase = none →
    ∃ t : State, step s = .next t ∧
      (∀ x, i = .opFX15 x → t.dt.toNat = (s.hostPhase.readV x).toNat - 1) ∧
      ((∀ x, i ≠ .opFX15 x) → t.dt.toNat = s.hostPhase.dt.toNat - 1) ∧
      (∀ x, i = .opFX18 x → t.st.toNat = (s.hostPhase.readV x).toNat - 1) ∧
      ((∀ x, i ≠ .opFX18 x) → t.st.toNat = s.hostPhase.st.toNat - 1) ∧
      ∀ x, i = .opFX07 x → t.readV x = s.hostPhase.dt

/-- When a performed cycle executes FX18 X, the output beep at the end of that cycle is 1 exactly when V[X] is at least 2, because the cycle that sets the timer also decrements it. (R186, R217, R224.) -/
def Obligations.BeepFollowsTheSoundTimer : Prop :=
  ∀ (s : State) (x : Reg), s.hostPhase.cycleEnabled = true → s.hostPhase.fetch = .ok (encode (.opFX18 x)) →
    ∃ t : State, step s = .next t ∧ (t.beep = true ↔ 2 ≤ (s.hostPhase.readV x).toNat)

/-- If FX55 X executes with its block inside the memory and the two bytes at the following pc lie inside that block, the fetch of the next cycle reads the stored register values, high byte first; memory in canonical form. (R52, R63, R165.) -/
def Obligations.StoredBytesAreFetched : Prop :=
  ∀ (s : State) (x k : Reg) (h : k.val + 1 ≤ x.val), s.mem.wf = true → s.i.toNat + x.val < 4096 →
    s.pc.toNat + 2 = s.i.toNat + k.val →
    ∃ t : State, exec (.opFX55 x) s = .next t ∧ t.fetch = .ok (joinBytes (s.readV k) (s.readV ⟨k.val + 1, by omega⟩))

/-- From every state that meets State.Inv (memory canonical; changed 0 in an initialised machine; not running while a fault is latched; running only when initialised; pc at most 0x10FE and every stack entry at most 0x0FFE in an initialised machine), reachable or not, a step gives a state that meets it, whatever the host does. The canonical form of memory is the model's own representation (log entry 15). (R26, R27, R28, R33, R36, R131, R206, R226.) -/
def Obligations.StepKeepsTheInvariant : Prop :=
  ∀ s t : State, s.Inv → step s = .next t → t.Inv

/-- State.reset meets State.Inv. That running is 0 there is the model's choice (log entry 2); the invariant does not rest on it. (R41, R240.) -/
def Obligations.ResetMeetsTheInvariant : Prop :=
  State.reset.Inv

/-- For every state whose memory lists rising addresses below 4096 and no entry equal to what an unlisted address reads as, and whatever the host does, so is the memory after a step. The canonical form is the model's own representation of MEM (log entry 15, DESIGN CHOICE); no rule speaks of it. (20_memory.md (the section on the array MEM, which the canonical form represents).) -/
def Obligations.StepKeepsMemoryCanonical : Prop :=
  ∀ s t : State, s.mem.wf = true → step s = .next t → t.mem.wf = true

/-- Two memories of one FONT in canonical form that read the same byte at every address are the same data. The canonical form is the model's own representation of MEM (log entry 15, DESIGN CHOICE); no rule speaks of it. (20_memory.md (the section on the array MEM, which the canonical form represents).) -/
def Obligations.CanonicalMemoryIsUnique : Prop :=
  ∀ m n : Memory, m.font = n.font → m.wf = true → n.wf = true → (∀ a : Nat, m.read a = n.read a) → m = n

/-- The check of count bytes at base answers none exactly when every address base + k, k below count, is below 4096; else it answers the lowest of them that is 4096 or above. Addresses are unbounded sums. (R55, R62, R201.) -/
def Obligations.BoundsCheckReportsTheLowestAddress : Prop :=
  ∀ base count : Nat,
    (blockFault? base count = none ↔ ∀ k < count, base + k < 4096) ∧
    ∀ a : Nat, blockFault? base count = some a →
      4096 ≤ a ∧ (∃ k < count, base + k = a) ∧ ∀ k < count, 4096 ≤ base + k → a ≤ base + k

/-- 1NNN answers the state with pc = NNN, BNNN the state with pc = NNN + V[0], a sum not reduced to 12 bits; nothing else changes and neither faults. (R132, R138.) -/
def Obligations.JumpsSetPc : Prop :=
  ∀ (nnn : BitVec 12) (s : State),
    (∃ t : State, exec (.op1NNN nnn) s = .next t ∧ t.pc.toNat = nnn.toNat ∧ t = { s with pc := t.pc }) ∧
    ∃ t : State, exec (.opBNNN nnn) s = .next t ∧ t.pc.toNat = nnn.toNat + (s.readV 0).toNat ∧ t = { s with pc := t.pc }

/-- With SP below 16, 2NNN writes pc (its own address, not pc + 2) to STK[SP], counts SP up, sets pc to NNN and changes nothing else, no other stack entry included; at SP = 16 it takes InvalidStackOperation(overflow) and changes nothing else. (R133.) -/
def Obligations.CallPushesItsOwnAddress : Prop :=
  ∀ (nnn : BitVec 12) (s : State),
    (s.sp.val < 16 → ∃ t : State, exec (.op2NNN nnn) s = .next t ∧
      (∀ k : Fin 16, t.stk[k.val] = if k.val = s.sp.val then s.pc else s.stk[k.val]) ∧
      t.sp.val = s.sp.val + 1 ∧ t.pc.toNat = nnn.toNat ∧ t = { s with stk := t.stk, sp := t.sp, pc := t.pc }) ∧
    (s.sp.val = 16 →
      exec (.op2NNN nnn) s =
        .next { s with fault := some (.invalidStackOperation .overflow s.pc), running := false })

/-- With SP above 0, 00EE counts SP down, sets pc to STK[old SP - 1] + 2 and changes nothing else, the popped entry included; at SP = 0 it takes InvalidStackOperation(underflow) and changes nothing else. (R131.) -/
def Obligations.ReturnResumesBehindTheCall : Prop :=
  ∀ s : State,
    (∀ k : Fin 16, s.sp.val = k.val + 1 → ∃ t : State, exec .op00EE s = .next t ∧
      t.sp.val = k.val ∧ t.pc.toNat = (s.stk[k.val].toNat + 2) % 65536 ∧ t = { s with sp := t.sp, pc := t.pc }) ∧
    (s.sp.val = 0 →
      exec .op00EE s = .next { s with fault := some (.invalidStackOperation .underflow s.pc), running := false })

/-- If 2NNN executes at P with SP = n below 16, then in every later state with SP = n + 1 whose entry STK[n] is still the pushed one, 00EE gives pc = P + 2 and SP = n and leaves the registers, I and the timers as they are. (R139.) -/
def Obligations.CallThenReturnRestoresPcAndSp : Prop :=
  ∀ (nnn : BitVec 12) (s : State) (n : Fin 16), s.sp.val = n.val → ∃ t : State, exec (.op2NNN nnn) s = .next t ∧
    ∀ u : State, u.sp = t.sp → u.stk[n.val] = t.stk[n.val] →
      ∃ w : State, exec .op00EE u = .next w ∧ w.pc.toNat = (s.pc.toNat + 2) % 65536 ∧ w.sp = s.sp ∧
        w = { u with pc := w.pc, sp := w.sp }

/-- 3XNN skips (pc + 4 in place of pc + 2, modulo 65536) exactly when V[X] = NN and 4XNN exactly when not; 5XY0 skips exactly when V[X] = V[Y] and 9XY0 exactly when not; nothing else changes, and none faults. (R134, R135, R136, R137.) -/
def Obligations.ConditionalSkipsCompareRegisters : Prop :=
  ∀ (x y : Reg) (nn : Byte) (s : State),
    (∃ t : State, exec (.op3XNN x nn) s = .next t ∧ t = { s with pc := t.pc } ∧
      t.pc.toNat = (s.pc.toNat + if (s.readV x).toNat = nn.toNat then 4 else 2) % 65536) ∧
    (∃ t : State, exec (.op4XNN x nn) s = .next t ∧ t = { s with pc := t.pc } ∧
      t.pc.toNat = (s.pc.toNat + if (s.readV x).toNat ≠ nn.toNat then 4 else 2) % 65536) ∧
    (∃ t : State, exec (.op5XY0 x y) s = .next t ∧ t = { s with pc := t.pc } ∧
      t.pc.toNat = (s.pc.toNat + if (s.readV x).toNat = (s.readV y).toNat then 4 else 2) % 65536) ∧
    ∃ t : State, exec (.op9XY0 x y) s = .next t ∧ t = { s with pc := t.pc } ∧
      t.pc.toNat = (s.pc.toNat + if (s.readV x).toNat ≠ (s.readV y).toNat then 4 else 2) % 65536

/-- 6XNN writes NN to V[X], 7XNN writes (V[X] + NN) mod 256, 8XY0 writes V[Y]; every other register keeps its value (VF too, unless X = F), pc goes on by 2 and nothing else changes. (R141, R142, R143.) -/
def Obligations.LoadMoveAndAddImmediate : Prop :=
  ∀ (x y : Reg) (nn : Byte) (s : State),
    (∃ t : State, exec (.op6XNN x nn) s = .next t ∧ t.readV x = nn ∧
      (∀ z : Reg, z ≠ x → t.readV z = s.readV z) ∧ t = { s with v := t.v, pc := s.pc + 2#16 }) ∧
    (∃ t : State, exec (.op7XNN x nn) s = .next t ∧ (t.readV x).toNat = ((s.readV x).toNat + nn.toNat) % 256 ∧
      (∀ z : Reg, z ≠ x → t.readV z = s.readV z) ∧ t = { s with v := t.v, pc := s.pc + 2#16 }) ∧
    ∃ t : State, exec (.op8XY0 x y) s = .next t ∧ t.readV x = s.readV y ∧
      (∀ z : Reg, z ≠ x → t.readV z = s.readV z) ∧ t = { s with v := t.v, pc := s.pc + 2#16 }

/-- Bit k of V[X] after 8XY1 is the OR, after 8XY2 the AND, after 8XY3 the exclusive OR of bit k of the old V[X] and V[Y]; every other register keeps its value (VF too, unless X = F), pc goes on by 2 and nothing else changes. (R144, R145, R146.) -/
def Obligations.BitwiseOperationsLeaveVF : Prop :=
  ∀ (x y : Reg) (s : State),
    (∃ t : State, exec (.op8XY1 x y) s = .next t ∧
      (∀ k < 8, (t.readV x).getLsbD k = ((s.readV x).getLsbD k || (s.readV y).getLsbD k)) ∧
      (∀ z : Reg, z ≠ x → t.readV z = s.readV z) ∧ t = { s with v := t.v, pc := s.pc + 2#16 }) ∧
    (∃ t : State, exec (.op8XY2 x y) s = .next t ∧
      (∀ k < 8, (t.readV x).getLsbD k = ((s.readV x).getLsbD k && (s.readV y).getLsbD k)) ∧
      (∀ z : Reg, z ≠ x → t.readV z = s.readV z) ∧ t = { s with v := t.v, pc := s.pc + 2#16 }) ∧
    ∃ t : State, exec (.op8XY3 x y) s = .next t ∧
      (∀ k < 8, (t.readV x).getLsbD k = ((s.readV x).getLsbD k ^^ (s.readV y).getLsbD k)) ∧
      (∀ z : Reg, z ≠ x → t.readV z = s.readV z) ∧ t = { s with v := t.v, pc := s.pc + 2#16 }

/-- When X is not F, 8XY4 leaves the sum of the old V[X] and V[Y] modulo 256 in V[X], and in VF 1 when the true sum is above 255 and else 0; when X = F, VF holds that flag under VF_PRIORITY = flag and that sum under VF_PRIORITY = result; every other register keeps its value, pc goes on by 2 and nothing else changes. Which of the two VF holds when X = F is the argument VF_PRIORITY (s.vfPriority, R6): the statement holds for both values, and flag is the default. (R6, R114, R147.) -/
def Obligations.AddWritesSumAndCarry : Prop :=
  ∀ (x y : Reg) (s : State), ∃ t : State, exec (.op8XY4 x y) s = .next t ∧
    (x ≠ 15 ∨ s.vfPriority = .result → (t.readV x).toNat = ((s.readV x).toNat + (s.readV y).toNat) % 256) ∧
    (x ≠ 15 ∨ s.vfPriority = .flag →
      (t.readV 15).toNat = if 255 < (s.readV x).toNat + (s.readV y).toNat then 1 else 0) ∧
    (∀ z : Reg, z ≠ x → z ≠ 15 → t.readV z = s.readV z) ∧ t = { s with v := t.v, pc := s.pc + 2#16 }

/-- 8XY5 leaves V[X] - V[Y], 8XY7 leaves V[Y] - V[X], modulo 256, in V[X] when X is not F, and in VF 1 when the minuend is at least the subtrahend (equality included) and else 0; when X = F, VF holds that flag under VF_PRIORITY = flag and that difference under VF_PRIORITY = result; every other register keeps its value, pc goes on by 2 and nothing else changes. Which of the two VF holds when X = F is the argument VF_PRIORITY (s.vfPriority, R6): the statement holds for both values, and flag is the default. (R6, R114, R148, R150.) -/
def Obligations.SubtractionsWriteDifferenceAndNotBorrow : Prop :=
  ∀ (x y : Reg) (s : State),
    (∃ t : State, exec (.op8XY5 x y) s = .next t ∧
      (x ≠ 15 ∨ s.vfPriority = .result → (t.readV x).toNat = ((s.readV x).toNat + 256 - (s.readV y).toNat) % 256) ∧
      (x ≠ 15 ∨ s.vfPriority = .flag →
        (t.readV 15).toNat = if (s.readV y).toNat ≤ (s.readV x).toNat then 1 else 0) ∧
      (∀ z : Reg, z ≠ x → z ≠ 15 → t.readV z = s.readV z) ∧ t = { s with v := t.v, pc := s.pc + 2#16 }) ∧
    ∃ t : State, exec (.op8XY7 x y) s = .next t ∧
      (x ≠ 15 ∨ s.vfPriority = .result → (t.readV x).toNat = ((s.readV y).toNat + 256 - (s.readV x).toNat) % 256) ∧
      (x ≠ 15 ∨ s.vfPriority = .flag →
        (t.readV 15).toNat = if (s.readV x).toNat ≤ (s.readV y).toNat then 1 else 0) ∧
      (∀ z : Reg, z ≠ x → z ≠ 15 → t.readV z = s.readV z) ∧ t = { s with v := t.v, pc := s.pc + 2#16 }

/-- When X is not F, 8XY6 leaves V[X] div 2 in V[X] and old bit 0 in VF, 8XYE leaves V[X] * 2 mod 256 and old bit 7; when X = F, VF holds that bit under VF_PRIORITY = flag and the shifted value under VF_PRIORITY = result; the Y field has no effect; every other register keeps its value, pc goes on by 2 and nothing else changes. Which of the two VF holds when X = F is the argument VF_PRIORITY (s.vfPriority, R6): the statement holds for both values, and flag is the default. (R6, R114, R149, R151.) -/
def Obligations.ShiftsReportTheBitShiftedOut : Prop :=
  ∀ (x : Reg) (s : State),
    (∃ t : State, (∀ y' : Reg, exec (.op8XY6 x y') s = .next t) ∧
      (x ≠ 15 ∨ s.vfPriority = .result → (t.readV x).toNat = (s.readV x).toNat / 2) ∧
      (x ≠ 15 ∨ s.vfPriority = .flag → (t.readV 15).toNat = (s.readV x).toNat % 2) ∧
      (∀ z : Reg, z ≠ x → z ≠ 15 → t.readV z = s.readV z) ∧ t = { s with v := t.v, pc := s.pc + 2#16 }) ∧
    ∃ t : State, (∀ y' : Reg, exec (.op8XYE x y') s = .next t) ∧
      (x ≠ 15 ∨ s.vfPriority = .result → (t.readV x).toNat = (s.readV x).toNat * 2 % 256) ∧
      (x ≠ 15 ∨ s.vfPriority = .flag → (t.readV 15).toNat = (s.readV x).toNat / 128) ∧
      (∀ z : Reg, z ≠ x → z ≠ 15 → t.readV z = s.readV z) ∧ t = { s with v := t.v, pc := s.pc + 2#16 }

/-- CXNN writes rnd AND NN to V[X], where rnd is the free value of this draw (Config.rnd, of which nothing is assumed: the statement holds for every value of it); so every bit of the result that is 0 in NN is 0, and NN = 0 gives 0; every other register keeps its value, the next draw is another, pc goes on by 2 and nothing else changes. (R113, R153.) -/
def Obligations.RandomByteIsMasked : Prop :=
  ∀ (x : Reg) (nn : Byte) (s : State), ∃ t : State, exec (.opCXNN x nn) s = .next t ∧
    t.readV x = Config.rnd s.freeIdx &&& nn ∧ (∀ k, nn.getLsbD k = false → (t.readV x).getLsbD k = false) ∧
    (nn = 0#8 → t.readV x = 0#8) ∧ (∀ z : Reg, z ≠ x → t.readV z = s.readV z) ∧
    t = { s with v := t.v, pc := s.pc + 2#16, freeIdx := s.freeIdx + 1 }

/-- ANNN sets I to NNN; FX29 sets I to V[X] * 5 (0 to 1275); pc goes on by 2 and nothing else changes. (R161, R163.) -/
def Obligations.IndexLoads : Prop :=
  ∀ (x : Reg) (nnn : BitVec 12) (s : State),
    (∃ t : State, exec (.opANNN nnn) s = .next t ∧ t.i.toNat = nnn.toNat ∧ t = { s with i := t.i, pc := s.pc + 2#16 }) ∧
    ∃ t : State, exec (.opFX29 x) s = .next t ∧ t.i.toNat = (s.readV x).toNat * 5 ∧
      t = { s with i := t.i, pc := s.pc + 2#16 }

/-- FX1E leaves (I + V[X]) mod 65536 in I and 1 in VF when the unreduced sum is above 0xFFF, else 0; with X = F the old VF is the addend and VF holds the flag; every register but VF keeps its value, pc goes on by 2 and nothing else changes. With X = F the statement holds for both values of the argument VF_PRIORITY (s.vfPriority): under flag, the default, that is R114 and R162; that VF holds the flag under result too, because the result of FX1E goes to I, is the model's reading (log entry 6, DEDUCED; D7 and the table of open parameters in 92_eei_decisions.md list FX1E with X = F under VF_PRIORITY). (R6, R114, R162.) -/
def Obligations.AddToIndexReportsOverflow : Prop :=
  ∀ (x : Reg) (s : State), ∃ t : State, exec (.opFX1E x) s = .next t ∧
    t.i.toNat = (s.i.toNat + (s.readV x).toNat) % 65536 ∧
    (t.readV 15).toNat = (if 0xFFF < s.i.toNat + (s.readV x).toNat then 1 else 0) ∧
    (∀ z : Reg, z ≠ 15 → t.readV z = s.readV z) ∧ t = { s with v := t.v, i := t.i, pc := s.pc + 2#16 }

/-- With I at most 4093 FX33 writes the hundreds, tens and ones of V[X] to I, I + 1, I + 2: MEM[I] * 100 + MEM[I+1] * 10 + MEM[I+2] is V[X], the last two below 10; every other address reads as before, pc goes on by 2, nothing else changes, I included. With I above 4093 it takes OutOfBounds(max(I, 4096)) and changes nothing else. Memory in canonical form. (R164.) -/
def Obligations.StoreDecimalDigits : Prop :=
  ∀ (x : Reg) (s : State), s.mem.wf = true →
    (s.i.toNat ≤ 4093 → ∃ t : State, exec (.opFX33 x) s = .next t ∧
      (t.mem.read s.i.toNat).toNat = (s.readV x).toNat / 100 ∧
      (t.mem.read (s.i.toNat + 1)).toNat = (s.readV x).toNat / 10 % 10 ∧
      (t.mem.read (s.i.toNat + 2)).toNat = (s.readV x).toNat % 10 ∧
      (t.mem.read s.i.toNat).toNat * 100 + (t.mem.read (s.i.toNat + 1)).toNat * 10 +
        (t.mem.read (s.i.toNat + 2)).toNat = (s.readV x).toNat ∧
      (∀ a : Nat, ¬(s.i.toNat ≤ a ∧ a < s.i.toNat + 3) → t.mem.read a = s.mem.read a) ∧
      t = { s with mem := t.mem, pc := s.pc + 2#16 }) ∧
    (4093 < s.i.toNat →
      exec (.opFX33 x) s =
        .next { s with fault := some (.outOfBounds (max s.i.toNat 4096) s.pc), running := false })

/-- With I + X at most 4095 FX55 writes V[k] to I + k for every k up to X, leaves every other address as it reads, sets I to I + X + 1 modulo 65536, pc goes on by 2 and nothing else changes, no register included. With I + X above 4095 it takes OutOfBounds(max(I, 4096)) and changes nothing else. Memory in canonical form. (R165.) -/
def Obligations.StoreRegistersAndAdvanceIndex : Prop :=
  ∀ (x : Reg) (s : State), s.mem.wf = true →
    (s.i.toNat + x.val ≤ 4095 → ∃ t : State, exec (.opFX55 x) s = .next t ∧
      (∀ k : Reg, k ≤ x → t.mem.read (s.i.toNat + k.val) = s.readV k) ∧
      (∀ a : Nat, ¬(s.i.toNat ≤ a ∧ a < s.i.toNat + x.val + 1) → t.mem.read a = s.mem.read a) ∧
      t.i.toNat = (s.i.toNat + x.val + 1) % 65536 ∧ t = { s with mem := t.mem, i := t.i, pc := s.pc + 2#16 }) ∧
    (4095 < s.i.toNat + x.val →
      exec (.opFX55 x) s =
        .next { s with fault := some (.outOfBounds (max s.i.toNat 4096) s.pc), running := false })

/-- With I + X at most 4095 FX65 loads V[k] from I + k for every k up to X, leaves the registers above VX as they are, sets I to I + X + 1 modulo 65536, pc goes on by 2 and nothing else changes, memory included. With I + X above 4095 it takes OutOfBounds(max(I, 4096)) and changes nothing else. (R166.) -/
def Obligations.LoadRegistersAndAdvanceIndex : Prop :=
  ∀ (x : Reg) (s : State),
    (s.i.toNat + x.val ≤ 4095 → ∃ t : State, exec (.opFX65 x) s = .next t ∧
      (∀ k : Reg, t.readV k = if k ≤ x then s.mem.read (s.i.toNat + k.val) else s.readV k) ∧
      t.i.toNat = (s.i.toNat + x.val + 1) % 65536 ∧ t = { s with v := t.v, i := t.i, pc := s.pc + 2#16 }) ∧
    (4095 < s.i.toNat + x.val →
      exec (.opFX65 x) s =
        .next { s with fault := some (.outOfBounds (max s.i.toNat 4096) s.pc), running := false })

/-- If FX55 X executes with its block inside the memory, then FX65 X executed in any later state with that memory and the old I gives V0 to VX the values they had at the store. Memory in canonical form. (R64, R165, R166.) -/
def Obligations.StoredRegistersLoadBack : Prop :=
  ∀ (x : Reg) (s : State), s.mem.wf = true → s.i.toNat + x.val ≤ 4095 →
    ∃ t : State, exec (.opFX55 x) s = .next t ∧
      ∀ u : State, u.mem = t.mem → u.i = s.i →
        ∃ w : State, exec (.opFX65 x) u = .next w ∧ ∀ k : Reg, k ≤ x → w.readV k = s.readV k

/-- After 00E0 every pixel is 0 and changed is 1, whatever the buffer held; pc goes on by 2 and nothing else changes, VF included. (R170.) -/
def Obligations.ClearDarkensEveryPixel : Prop :=
  ∀ s : State, ∃ t : State, exec .op00E0 s = .next t ∧ (∀ (a : Fin 64) (b : Fin 32), t.getPixel a b = false) ∧
    t.changed = true ∧ t = { s with fb := t.fb, changed := true, pc := s.pc + 2#16 }

/-- With all N sprite bytes inside the memory (or N = 0, with I anything), the bit-by-bit drawing of DXYN leaves each pixel (a, b) of the canvas as its old value XOR S(a, b), where S is 1 exactly when a - V[X] is in 0 to 7, b - V[Y] in 0 to N - 1 and bit 7 - (a - V[X]) of MEM[I + b - V[Y]] is 1; VF is 1 when some pixel of the canvas was lit under S and else 0, also when X or Y is F; changed is 1; every other register keeps its value, pc goes on by 2 and nothing else changes. That bit 7 is leftmost is the spec's decision from general knowledge (log entry 16). (R171, R172, R173, R174, R175, R176.) -/
def Obligations.DrawIsXorWithTheSpriteMask : Prop :=
  ∀ (x y : Reg) (n : Fin 16) (s : State), (n.val = 0 ∨ s.i.toNat + n.val ≤ 4096) →
    ∃ t : State, exec (.opDXYN x y n) s = .next t ∧
      (∀ (a : Fin 64) (b : Fin 32), s.spriteCovers x y n a.val b.val → t.getPixel a b = !s.getPixel a b) ∧
      (∀ (a : Fin 64) (b : Fin 32), ¬s.spriteCovers x y n a.val b.val → t.getPixel a b = s.getPixel a b) ∧
      ((∃ (a : Fin 64) (b : Fin 32), s.getPixel a b = true ∧ s.spriteCovers x y n a.val b.val) → t.readV 15 = 1#8) ∧
      ((∀ (a : Fin 64) (b : Fin 32), s.getPixel a b = true → ¬s.spriteCovers x y n a.val b.val) → t.readV 15 = 0#8) ∧
      (∀ z : Reg, z ≠ 15 → t.readV z = s.readV z) ∧
      t = { s with v := t.v, fb := t.fb, changed := true, pc := s.pc + 2#16 }

/-- With N above 0 and I + N - 1 at 4096 or above, DXYN takes OutOfBounds(max(I, 4096)) and changes nothing else, wherever its rows would land on the display. (R55, R172, R201, R206.) -/
def Obligations.DrawOutsideMemoryFaults : Prop :=
  ∀ (x y : Reg) (n : Fin 16) (s : State), 0 < n.val → 4096 ≤ s.i.toNat + n.val - 1 →
    exec (.opDXYN x y n) s =
      .next { s with fault := some (.outOfBounds (max s.i.toNat 4096) s.pc), running := false }

/-- With neither coordinate in VF and the sprite inside the memory, a DXYN executed again on the state it left gives the display of before; and the second VF is 1 exactly when some set sprite bit inside the canvas had landed on an unlit pixel. Which pixel a bit lands on rests on bit 7 being leftmost, the spec's decision from general knowledge (log entry 16). (R172, R175.) -/
def Obligations.DrawingTwiceRestoresTheDisplay : Prop :=
  ∀ (x y : Reg) (n : Fin 16) (s : State), x ≠ 15 → y ≠ 15 → (n.val = 0 ∨ s.i.toNat + n.val ≤ 4096) →
    ∃ t u : State, exec (.opDXYN x y n) s = .next t ∧ exec (.opDXYN x y n) t = .next u ∧ u.fb = s.fb ∧
      (u.readV 15 = 1#8 ↔ ∃ (a : Fin 64) (b : Fin 32), s.spriteCovers x y n a.val b.val ∧ s.getPixel a b = false)

/-- With V[X] at 64 or above or V[Y] at 32 or above, and the sprite inside the memory, DXYN leaves the display as it is, with VF = 0: nothing wraps. (R173.) -/
def Obligations.SpritesOffTheCanvasAreDropped : Prop :=
  ∀ (x y : Reg) (n : Fin 16) (s : State), 64 ≤ (s.readV x).toNat ∨ 32 ≤ (s.readV y).toNat →
    (n.val = 0 ∨ s.i.toNat + n.val ≤ 4096) →
    ∃ t : State, exec (.opDXYN x y n) s = .next t ∧ t.fb = s.fb ∧ t.readV 15 = 0#8

/-- With V[X] = k in 0 to 15 EX9E skips exactly when key k is pressed and EXA1 exactly when it is not, and only pc changes; with V[X] above 15 each takes InvalidKeyIndex(V[X]) and changes nothing else. (R181, R182.) -/
def Obligations.KeySkipsTestTheNamedKey : Prop :=
  ∀ (x : Reg) (s : State),
    (∀ k : Fin 16, (s.readV x).toNat = k.val →
      (∃ t : State, exec (.opEX9E x) s = .next t ∧ t = { s with pc := t.pc } ∧
        t.pc.toNat = (s.pc.toNat + if s.keys.getLsbD k.val = true then 4 else 2) % 65536) ∧
      ∃ t : State, exec (.opEXA1 x) s = .next t ∧ t = { s with pc := t.pc } ∧
        t.pc.toNat = (s.pc.toNat + if s.keys.getLsbD k.val = false then 4 else 2) % 65536) ∧
    (15 < (s.readV x).toNat →
      exec (.opEX9E x) s = .next { s with fault := some (.invalidKeyIndex (s.readV x) s.pc), running := false } ∧
      exec (.opEXA1 x) s = .next { s with fault := some (.invalidKeyIndex (s.readV x) s.pc), running := false })

/-- With every key released FX0A answers the state unchanged, pc included; with some key pressed it writes the index of a pressed key to V[X], every other register keeps its value, pc goes on by 2 and nothing else changes but the count of free values drawn. Which key is the argument KEY_SELECT (s.keySelect, R6): under lowest, the default, it is the least pressed index and no free value is drawn; under any, the safe superset of the spec, it is the one pickKey names for the free value Config.keyChoice, of which nothing is assumed, and no pressed key is shut out: each is named by some value of the choice. (R6, R183.) -/
def Obligations.WaitForKeyBlocksOrStoresAPressedKey : Prop :=
  ∀ (x : Reg) (s : State),
    ((∀ k < 16, s.keys.getLsbD k = false) → exec (.opFX0A x) s = .next s) ∧
    (∀ k < 16, s.keys.getLsbD k = true →
      ∃ t : State, exec (.opFX0A x) s = .next t ∧ (t.readV x).toNat < 16 ∧ s.keys.getLsbD (t.readV x).toNat = true ∧
        (s.keySelect = .lowest → t.freeIdx = s.freeIdx ∧ ∀ j < (t.readV x).toNat, s.keys.getLsbD j = false) ∧
        (s.keySelect = .any → t.freeIdx = s.freeIdx + 1 ∧ ∃ j : Fin 16,
          pickKey .any s.pressedKeys (Config.keyChoice s.freeIdx) = some j ∧ (t.readV x).toNat = j.val) ∧
        (∀ z : Reg, z ≠ x → t.readV z = s.readV z) ∧
        t = { s with v := t.v, pc := s.pc + 2#16, freeIdx := t.freeIdx }) ∧
    ∀ k : Fin 16, s.keys.getLsbD k.val = true → ∃ choice : Nat, pickKey .any s.pressedKeys choice = some k

/-- In the execute stage FX07 writes DT to V[X] and every other register keeps its value; FX15 writes V[X] to DT; FX18 writes V[X] to ST; in each pc goes on by 2 and nothing else changes (the decrement is the timer stage of the cycle). (R113, R180, R184, R185, R186.) -/
def Obligations.TimerInstructionsMoveTheTimers : Prop :=
  ∀ (x : Reg) (s : State),
    (∃ t : State, exec (.opFX07 x) s = .next t ∧ t.readV x = s.dt ∧ (∀ z : Reg, z ≠ x → t.readV z = s.readV z) ∧
      t = { s with v := t.v, pc := s.pc + 2#16 }) ∧
    exec (.opFX15 x) s = .next { s with dt := s.readV x, pc := s.pc + 2#16 } ∧
    exec (.opFX18 x) s = .next { s with st := s.readV x, pc := s.pc + 2#16 }

/-- When the loaded image has 1 to 3584 bytes, reset zeroes V, I, SP, STK, DT, ST, the display, changed and the keys, sets pc to 0x200, clears the fault latch and reset_pending and sets initialized (all as in State.reset), leaves running, paused, the arguments of the machine and what is the host's as they were, and gives MEM the image from 0x200, the machine's font (the argument FONT, whatever its 80 bytes) at 0x000 to 0x04F and 0x00 everywhere else; beep is 0 and no strobe is given. At power-on running and paused are 0. (R41.) -/
def Obligations.ResetLoadsFontAndImage : Prop :=
  (∀ (s : State) (rom : List Byte), s.rom = some rom → 1 ≤ rom.length → rom.length ≤ 3584 →
    (∀ x : Reg, s.performReset.readV x = 0#8) ∧ s.performReset.i = 0#16 ∧ s.performReset.pc = 0x0200#16 ∧
    s.performReset.sp.val = 0 ∧ (∀ k : Fin 16, s.performReset.stk[k.val] = 0#16) ∧
    s.performReset.dt = 0#8 ∧ s.performReset.st = 0#8 ∧
    (∀ (a : Fin 64) (b : Fin 32), s.performReset.getPixel a b = false) ∧ s.performReset.changed = false ∧
    s.performReset.keys = 0#16 ∧ s.performReset.fault = none ∧ s.performReset.resetPending = false ∧
    s.performReset.initialized = true ∧ s.performReset.beep = false ∧
    s.performReset = { State.reset with
      mem := s.performReset.mem, running := s.running, paused := s.paused, rom := s.rom,
      vfPriority := s.vfPriority, keySelect := s.keySelect, cycleDelayMs := s.cycleDelayMs, inputs := s.inputs,
      strobes := s.strobes, answers := s.answers, freeIdx := s.freeIdx } ∧
    ∀ a < 4096, s.performReset.mem.read a =
      if 0x200 ≤ a ∧ a < 0x200 + rom.length then rom.getD (a - 0x200) 0#8
      else if h : a < 80 then s.mem.font[a] else 0#8) ∧
  ∀ (font : Config.FontTable) (p : Config.VfPriority) (k : Config.KeySelect),
    (State.powerOn font p k).running = false ∧ (State.powerOn font p k).paused = false

/-- With no image loaded the reset is answered NoRomLoaded, with an empty one InvalidState, with one longer than 3584 bytes CapacityExceeded(length); in each case initialized is 0, the refusal is not latched in fault, running, paused and reset_pending keep their values, and no statement is made about the program-visible contents, which are unspecified. That reset_pending keeps its value is the model's reading (log entries 9 and 19: R242 leaves all other state unspecified and says nothing of the flag; the deferred reset clears it besides). (R57, R200, R208, R242.) -/
def Obligations.ResetIsRefusedWithoutAGoodImage : Prop :=
  ∀ s : State,
    (s.rom = none → s.performReset.answers = s.answers ++ [.resetRefused .noRomLoaded]) ∧
    (s.rom = some [] → s.performReset.answers = s.answers ++ [.resetRefused .invalidState]) ∧
    (∀ rom : List Byte, s.rom = some rom → 3584 < rom.length →
      s.performReset.answers = s.answers ++ [.resetRefused (.capacityExceeded rom.length)]) ∧
    ((s.rom = none ∨ s.rom = some [] ∨ ∃ rom : List Byte, s.rom = some rom ∧ 3584 < rom.length) →
      s.performReset.initialized = false ∧ s.performReset.fault = s.fault ∧ s.performReset.running = s.running ∧
        s.performReset.paused = s.paused ∧ s.performReset.resetPending = s.resetPending ∧ s.performReset.rom = s.rom)

/-- load_rom records the image and changes nothing else, MEM included. init on an initialised machine changes nothing, else it performs the reset of R240. run on a running or a faulted machine changes nothing; on an initialised one it sets running; on an uninitialised one it resets with the loaded image and sets running. When the image is refused (refusalOf: none NoRomLoaded, empty InvalidState, above 3584 bytes CapacityExceeded) init and run each answer exactly that refusal, after the answers given before, initialized is 0, paused and the fault latch keep their values, and running is as before under init and 0 under run. (R227, R229, R242.) -/
def Obligations.InitAndRunCommands : Prop :=
  ∀ s : State,
    (∀ bytes : List Byte, s.hostDo (.loadRom bytes) = { s with rom := some bytes }) ∧
    (s.initialized = true → s.hostDo .init = s) ∧
    (∀ rom : List Byte, s.initialized = false → s.rom = some rom → 1 ≤ rom.length → rom.length ≤ 3584 →
      s.hostDo .init = s.resetWith rom) ∧
    (∀ why : ResetRefusal, s.initialized = false → refusalOf s.rom = some why →
      (s.hostDo .init).answers = s.answers ++ [.resetRefused why] ∧ (s.hostDo .init).initialized = false ∧
        (s.hostDo .init).running = s.running ∧ (s.hostDo .init).paused = s.paused ∧ (s.hostDo .init).fault = s.fault) ∧
    (s.running = true ∨ s.fault ≠ none → s.hostDo .run = s) ∧
    (s.running = false → s.fault = none → s.initialized = true → s.hostDo .run = { s with running := true }) ∧
    (∀ rom : List Byte, s.running = false → s.fault = none → s.initialized = false → s.rom = some rom →
      1 ≤ rom.length → rom.length ≤ 3584 → s.hostDo .run = { s.resetWith rom with running := true }) ∧
    ∀ why : ResetRefusal, s.running = false → s.fault = none → s.initialized = false → refusalOf s.rom = some why →
      (s.hostDo .run).answers = s.answers ++ [.resetRefused why] ∧ (s.hostDo .run).initialized = false ∧
        (s.hostDo .run).running = false ∧ (s.hostDo .run).paused = s.paused ∧ (s.hostDo .run).fault = none

/-- pause and unpause write paused and nothing else, in every state. If, after the host's commands of the boundary, paused is 1, the step is those commands alone: no cycle, no timer count, no strobe, no pending reset; so a step at which the host says pause only sets the flag. A step at which the host says unpause on a running, initialised machine without fault or pending reset is the cycle of that very state with paused 0; on a running machine with a pending reset it performs that reset; on a machine that is not running it only clears the flag. The outputs of the step before are taken back in each. That the commands of a boundary and the cycle after them are one step is the model's choice (log entry 3), that a pending reset takes the step for itself is log entry 11. (R120, R228, R230.) -/
def Obligations.PausedMachinesHoldStill : Prop :=
  (∀ s : State, s.hostDo .pause = { s with paused := true } ∧ s.hostDo .unpause = { s with paused := false }) ∧
  (∀ s : State, s.hostPhase.paused = true → step s = .next s.hostPhase) ∧
  (∀ (s : State) (rest : List (List HostCmd)), s.inputs = [.pause] :: rest →
    step s = .next { s with paused := true, inputs := rest, strobes := [], answers := [] }) ∧
  (∀ (s : State) (rest : List (List HostCmd)), s.inputs = [.unpause] :: rest → s.initialized = true →
    s.running = true → s.fault = none → s.resetPending = false →
    step s = cycle { s with paused := false, inputs := rest, strobes := [], answers := [] }) ∧
  (∀ (s : State) (rest : List (List HostCmd)), s.inputs = [.unpause] :: rest → s.running = true →
    s.resetPending = true →
    step s = .next ({ s with paused := false, inputs := rest, strobes := [], answers := [] } : State).honourReset) ∧
  ∀ (s : State) (rest : List (List HostCmd)), s.inputs = [.unpause] :: rest → s.running = false →
    step s = .next { s with paused := false, inputs := rest, strobes := [], answers := [] }

/-- If, after the host's commands, the machine is not initialised, not running, paused, or holds a fault, and no pending reset is due, the step is those commands alone; in particular a step at which the host says stop ends with running and initialized 0 and everything else as it was, the display included. That stop leaves everything else as it was, but for the display and beep, is the model's reading (log entry 21, DEDUCED: R231 calls those contents unspecified to the program), and that such a step has a next state is its choice (log entry 22). (R120, R226, R228, R231.) -/
def Obligations.CyclesRunOnlyWhenEnabled : Prop :=
  (∀ s : State, (s.hostPhase.initialized = false ∨ s.hostPhase.running = false ∨ s.hostPhase.paused = true ∨
      s.hostPhase.fault ≠ none) → (s.hostPhase.resetPending = false ∨ s.hostPhase.running = false ∨
      s.hostPhase.paused = true) → step s = .next s.hostPhase) ∧
  ∀ (s : State) (rest : List (List HostCmd)), s.inputs = [.stop] :: rest →
    step s = .next { s with running := false, initialized := false, inputs := rest, strobes := [], answers := [] }

/-- The command reset on a running machine only sets reset_pending; on a machine that is not running it resets at once with a good image, and with one that is refused (refusalOf: none, empty, above 3584 bytes) it answers that refusal and leaves initialized and running 0. If, after the host's commands of the boundary, a running machine that is not paused has a pending reset, the step performs the reset with the image loaded by then and no cycle, and running stays; with an image that is refused, the refusal is the last answer of the step, running and initialized are 0 afterwards, paused and the fault latch keep their values, and reset_pending is 0. In particular a step at which the host says reset on a running machine that is not paused ends in the reset state with the loaded image, running, or answers the refusal alone. That reset_pending is 0 after the refusal is the model's reading (log entry 19, DEDUCED); that the deferred reset takes a step without a cycle is its choice (log entry 11), and so is that the commands of a boundary belong to the step (log entry 3). (R228, R240, R242, R243.) -/
def Obligations.DeferredResetOfARunningMachine : Prop :=
  (∀ s : State, s.running = true → s.hostDo .reset = { s with resetPending := true }) ∧
  (∀ (s : State) (rom : List Byte), s.running = false → s.rom = some rom → 1 ≤ rom.length → rom.length ≤ 3584 →
    s.hostDo .reset = s.resetWith rom) ∧
  (∀ (s : State) (why : ResetRefusal), s.running = false → refusalOf s.rom = some why →
    (s.hostDo .reset).answers = s.answers ++ [.resetRefused why] ∧ (s.hostDo .reset).initialized = false ∧
      (s.hostDo .reset).running = false) ∧
  (∀ (s : State) (rom : List Byte), s.hostPhase.running = true → s.hostPhase.paused = false →
    s.hostPhase.resetPending = true → s.hostPhase.rom = some rom → 1 ≤ rom.length → rom.length ≤ 3584 →
    step s = .next (s.hostPhase.resetWith rom)) ∧
  (∀ (s : State) (why : ResetRefusal), s.hostPhase.running = true → s.hostPhase.paused = false →
    s.hostPhase.resetPending = true → refusalOf s.hostPhase.rom = some why →
    ∃ t : State, step s = .next t ∧ t.answers = s.hostPhase.answers ++ [.resetRefused why] ∧ t.running = false ∧
      t.initialized = false ∧ t.paused = false ∧ t.fault = s.hostPhase.fault ∧ t.resetPending = false) ∧
  (∀ (s : State) (rest : List (List HostCmd)) (rom : List Byte), s.inputs = [.reset] :: rest → s.running = true →
    s.paused = false → s.rom = some rom → 1 ≤ rom.length → rom.length ≤ 3584 →
    step s = .next { s.resetWith rom with inputs := rest, strobes := [], answers := [] }) ∧
  ∀ (s : State) (rest : List (List HostCmd)) (why : ResetRefusal), s.inputs = [.reset] :: rest → s.running = true →
    s.paused = false → refusalOf s.rom = some why →
    ∃ t : State, step s = .next t ∧ t.answers = [.resetRefused why] ∧ t.running = false ∧ t.initialized = false ∧
      t.paused = false ∧ t.fault = s.fault ∧ t.resetPending = false ∧ t.inputs = rest

/-- After pressKey k key k is pressed, after releaseKey k it is released; every other key keeps its level, and nothing else of the state changes. (R34, R222.) -/
def Obligations.KeyPortWritesOneKey : Prop :=
  ∀ (s : State) (k j : Fin 16),
    (s.hostDo (.pressKey k)).keyDown j = (if j = k then true else s.keyDown j) ∧
    (s.hostDo (.releaseKey k)).keyDown j = (if j = k then false else s.keyDown j) ∧
    s.hostDo (.pressKey k) = { s with keys := (s.hostDo (.pressKey k)).keys } ∧
    s.hostDo (.releaseKey k) = { s with keys := (s.hostDo (.releaseKey k)).keys }

/-- At power-on, whatever the arguments FONT, VF_PRIORITY and KEY_SELECT and the unspecified contents, a host that gives load_rom with an image of 2 to 3584 bytes and run makes the machine the reset state with that image loaded and running (every contents the spec leaves open at power-on is overwritten), and the step is the cycle of that state, which fetches the first two bytes of the image, from 0x200. The equation with State.reset gives every field, so it also says the following, which are the model's choices and no rules: CYCLE_DELAY_MS, an argument by R6, is 0 after boot because it is 0 at power-on (log entry 13); one free value has been drawn, the contents at power-on (log entry 9); no further command is waiting (log entry 3) and the outputs are empty (log entry 10). That one boundary's commands and the cycle after them are one step is the model's choice too (log entry 3). That paused is 0 is its power-on value (R35). (R6, R35, R227, R229, R240, R241, R244, R246.) -/
def Obligations.BootRunsTheFirstWordOfTheImage : Prop :=
  ∀ (font : Config.FontTable) (p : Config.VfPriority) (k : Config.KeySelect) (b c : Byte) (rest : List Byte),
    rest.length ≤ 3582 →
    ({ State.powerOn font p k with inputs := [[.loadRom (b :: c :: rest), .run]] } : State).hostPhase =
      { State.reset with
        mem := Memory.afterReset font (b :: c :: rest), vfPriority := p, keySelect := k,
        rom := some (b :: c :: rest), running := true, freeIdx := 1 } ∧
    step { State.powerOn font p k with inputs := [[.loadRom (b :: c :: rest), .run]] } =
      cycle ({ State.powerOn font p k with inputs := [[.loadRom (b :: c :: rest), .run]] } : State).hostPhase ∧
    ({ State.powerOn font p k with inputs := [[.loadRom (b :: c :: rest), .run]] } : State).hostPhase.fetch =
      .ok (joinBytes b c)

/-- After every step, one with a reset, a refused reset or a store into the font area included, the table FONT is the one before the step (ResetLoadsFontAndImage says that a reset writes it). That State.reset, a reset state without an image, stands for the machine before an image is loaded is the model's choice (log entry 1: R240 always loads one); with every table that state (State.reset with that table) meets State.Inv and reads its bytes at 0x000 to 0x04F and 0x00 above. The canonical form in State.Inv is log entry 15. No byte value of the default is used. (R6, R58, R241.) -/
def Obligations.FontIsAnArgument : Prop :=
  (∀ s t : State, step s = .next t → t.mem.font = s.mem.font) ∧
  ∀ font : Config.FontTable, ({ State.reset with mem := ⟨font, []⟩ } : State).Inv ∧
    ∀ a : Nat, ({ State.reset with mem := ⟨font, []⟩ } : State).mem.read a = if h : a < 80 then font[a] else 0#8

/-- After every step, one with a reset or a refused reset included, VF_PRIORITY and KEY_SELECT are those before the step, so a claim about every state is a claim for every value of both; and with every value of both State.reset meets State.Inv. That State.reset, a reset state without an image, stands for the machine before an image is loaded is the choice of the model (log entry 1). (R6, R114, R183.) -/
def Obligations.VfPriorityAndKeySelectAreArguments : Prop :=
  (∀ s t : State, step s = .next t → t.vfPriority = s.vfPriority ∧ t.keySelect = s.keySelect) ∧
  ∀ (p : Config.VfPriority) (k : Config.KeySelect), ({ State.reset with vfPriority := p, keySelect := k } : State).Inv
end

