-- ==== Sys2Proof/Laws/Decode.lean ====
section
/-! SUPPORT. The fields of an opcode word: their values as numbers, and what each format puts into them. -/

namespace Sys2Proof

/-! ### The fields as numbers (R81) -/

@[simp] theorem toNat_fieldClass (op : Word) : (fieldClass op).toNat = op.toNat / 4096 := by
  have := op.isLt
  simp [fieldClass, Nat.shiftRight_eq_div_pow]; omega

@[simp] theorem val_fieldX (op : Word) : (fieldX op).val = op.toNat / 256 % 16 := by
  simp [fieldX, Nat.shiftRight_eq_div_pow]

@[simp] theorem val_fieldY (op : Word) : (fieldY op).val = op.toNat / 16 % 16 := by
  simp [fieldY, Nat.shiftRight_eq_div_pow]

@[simp] theorem val_fieldN (op : Word) : (fieldN op).val = op.toNat % 16 := by
  simp [fieldN]

@[simp] theorem toNat_fieldNN (op : Word) : (fieldNN op).toNat = op.toNat % 256 := by
  simp [fieldNN]

@[simp] theorem toNat_fieldNNN (op : Word) : (fieldNNN op).toNat = op.toNat % 4096 := by
  simp [fieldNNN]

/-! ### The formats as numbers (R82) -/

theorem toNat_append_eq {m n : Nat} (a : BitVec m) (b : BitVec n) : (a ++ b).toNat = a.toNat * 2 ^ n + b.toNat := by
  rw [BitVec.toNat_append, Nat.shiftLeft_eq, Nat.mul_comm, ← Nat.two_pow_add_eq_or_of_lt b.isLt a.toNat]

theorem toNat_wordNNN (c : BitVec 4) (nnn : BitVec 12) : (wordNNN c nnn).toNat = c.toNat * 4096 + nnn.toNat :=
  toNat_append_eq c nnn

theorem toNat_append3 (a b : BitVec 4) (c : BitVec 8) :
    (a ++ b ++ c).toNat = a.toNat * 4096 + b.toNat * 256 + c.toNat := by
  rw [toNat_append_eq, toNat_append_eq]; omega

theorem toNat_append4 (a b c d : BitVec 4) :
    (a ++ b ++ c ++ d).toNat = a.toNat * 4096 + b.toNat * 256 + c.toNat * 16 + d.toNat := by
  rw [toNat_append_eq, toNat_append_eq, toNat_append_eq]; omega

theorem toNat_wordXNN (c : BitVec 4) (x : Reg) (nn : Byte) :
    (wordXNN c x nn).toNat = c.toNat * 4096 + x.val * 256 + nn.toNat :=
  toNat_append3 c (BitVec.ofFin x) nn

theorem toNat_wordXYN (c : BitVec 4) (x y : Reg) (n : Fin 16) :
    (wordXYN c x y n).toNat = c.toNat * 4096 + x.val * 256 + y.val * 16 + n.val :=
  toNat_append4 c (BitVec.ofFin x) (BitVec.ofFin y) (BitVec.ofFin n)

/-! ### The fields of each format -/

@[simp] theorem fieldClass_wordNNN (c : BitVec 4) (nnn : BitVec 12) : fieldClass (wordNNN c nnn) = c := by
  apply BitVec.eq_of_toNat_eq; rw [toNat_fieldClass, toNat_wordNNN]; have := nnn.isLt; omega

@[simp] theorem fieldNNN_wordNNN (c : BitVec 4) (nnn : BitVec 12) : fieldNNN (wordNNN c nnn) = nnn := by
  apply BitVec.eq_of_toNat_eq; rw [toNat_fieldNNN, toNat_wordNNN]; have := nnn.isLt; omega

@[simp] theorem fieldClass_wordXNN (c : BitVec 4) (x : Reg) (nn : Byte) : fieldClass (wordXNN c x nn) = c := by
  apply BitVec.eq_of_toNat_eq; rw [toNat_fieldClass, toNat_wordXNN]; have := nn.isLt; omega

@[simp] theorem fieldX_wordXNN (c : BitVec 4) (x : Reg) (nn : Byte) : fieldX (wordXNN c x nn) = x := by
  apply Fin.ext; rw [val_fieldX, toNat_wordXNN]; have := nn.isLt; omega

@[simp] theorem fieldNN_wordXNN (c : BitVec 4) (x : Reg) (nn : Byte) : fieldNN (wordXNN c x nn) = nn := by
  apply BitVec.eq_of_toNat_eq; rw [toNat_fieldNN, toNat_wordXNN]; have := nn.isLt; omega

@[simp] theorem fieldClass_wordXYN (c : BitVec 4) (x y : Reg) (n : Fin 16) : fieldClass (wordXYN c x y n) = c := by
  apply BitVec.eq_of_toNat_eq; rw [toNat_fieldClass, toNat_wordXYN]; omega

@[simp] theorem fieldX_wordXYN (c : BitVec 4) (x y : Reg) (n : Fin 16) : fieldX (wordXYN c x y n) = x := by
  apply Fin.ext; rw [val_fieldX, toNat_wordXYN]; omega

@[simp] theorem fieldY_wordXYN (c : BitVec 4) (x y : Reg) (n : Fin 16) : fieldY (wordXYN c x y n) = y := by
  apply Fin.ext; rw [val_fieldY, toNat_wordXYN]; omega

@[simp] theorem fieldN_wordXYN (c : BitVec 4) (x y : Reg) (n : Fin 16) : fieldN (wordXYN c x y n) = n := by
  apply Fin.ext; rw [val_fieldN, toNat_wordXYN]; omega

/-! ### Every word is made of its fields -/

theorem wordNNN_fields (op : Word) : wordNNN (fieldClass op) (fieldNNN op) = op := by
  apply BitVec.eq_of_toNat_eq; rw [toNat_wordNNN, toNat_fieldClass, toNat_fieldNNN]; omega

theorem wordXNN_fields (op : Word) : wordXNN (fieldClass op) (fieldX op) (fieldNN op) = op := by
  apply BitVec.eq_of_toNat_eq; rw [toNat_wordXNN, toNat_fieldClass, val_fieldX, toNat_fieldNN]; omega

theorem wordXYN_fields (op : Word) : wordXYN (fieldClass op) (fieldX op) (fieldY op) (fieldN op) = op := by
  apply BitVec.eq_of_toNat_eq; rw [toNat_wordXYN, toNat_fieldClass, val_fieldX, val_fieldY, val_fieldN]; omega

/-! ### The masks of the opcode map on each format (R82) -/

theorem nibble_and_F (c : BitVec 4) : c &&& 0xF#4 = c := BitVec.and_allOnes

/-- Mask 0xF000 leaves the class digit. -/
@[simp] theorem wordNNN_and_F000 (c : BitVec 4) (nnn : BitVec 12) : wordNNN c nnn &&& 0xF000#16 = wordNNN c 0#12 := by
  rw [show (0xF000#16 : Word) = 0xF#4 ++ 0#12 from rfl, wordNNN, BitVec.and_append, nibble_and_F, BitVec.and_zero, wordNNN]

/-- Mask 0xF000 on the other formats. -/
@[simp] theorem wordXNN_and_F000 (c : BitVec 4) (x : Reg) (nn : Byte) :
    wordXNN c x nn &&& 0xF000#16 = wordNNN c 0#12 := by
  rw [← wordNNN_fields (wordXNN c x nn), wordNNN_and_F000, fieldClass_wordXNN]

/-- Mask 0xF000 on the other formats. -/
@[simp] theorem wordXYN_and_F000 (c : BitVec 4) (x y : Reg) (n : Fin 16) :
    wordXYN c x y n &&& 0xF000#16 = wordNNN c 0#12 := by
  rw [← wordNNN_fields (wordXYN c x y n), wordNNN_and_F000, fieldClass_wordXYN]

/-- Mask 0xF0FF leaves the class digit and the low byte. -/
@[simp] theorem wordXNN_and_F0FF (c : BitVec 4) (x : Reg) (nn : Byte) :
    wordXNN c x nn &&& 0xF0FF#16 = wordXNN c 0 nn := by
  rw [show (0xF0FF#16 : Word) = (0xF#4 ++ 0#4 ++ 0xFF#8 : BitVec (4 + 4 + 8)) from rfl, wordXNN, BitVec.and_append,
    BitVec.and_append, nibble_and_F, BitVec.and_zero, show nn &&& 0xFF#8 = nn from BitVec.and_allOnes]
  rfl

/-- Mask 0xF00F leaves the class digit and the last digit. -/
@[simp] theorem wordXYN_and_F00F (c : BitVec 4) (x y : Reg) (n : Fin 16) :
    wordXYN c x y n &&& 0xF00F#16 = wordXYN c 0 0 n := by
  rw [show (0xF00F#16 : Word) = (0xF#4 ++ 0#4 ++ 0#4 ++ 0xF#4 : BitVec (4 + 4 + 4 + 4)) from rfl, wordXYN,
    BitVec.and_append, BitVec.and_append, BitVec.and_append, nibble_and_F, BitVec.and_zero, BitVec.and_zero, nibble_and_F]
  rfl

end Sys2Proof
end

