-- ==== Sys2Proof/Laws/Memory.lean ====
section
/-! SUPPORT. The laws of memory: every operation keeps the canonical form, and a read after a write. -/

namespace Sys2Proof.Machine

variable {font : Config.FontTable}

/-- An entry made by `cellOf` reads as its byte at its address. -/
theorem readCells_cellOf_append (a : Nat) (w : Byte) (t : List Host.Cell) (b : Nat)
    (h : w = unlisted font a → readCells font t a = unlisted font a) :
    readCells font (cellOf font a w ++ t) b = if a = b then w else readCells font t b := by
  unfold cellOf
  by_cases hw : w = unlisted font a
  · by_cases hb : a = b
    · subst hb; simp [hw, h hw]
    · simp [hw, hb]
  · simp [hw, readCells]

/-- Below the first listed address nothing is listed. -/
theorem readCells_of_lt {lo : Nat} {t : List Host.Cell} (h : cellsWf font lo t = true) {a : Nat} (ha : a < lo) :
    readCells font t a = unlisted font a := by
  induction t generalizing lo with
  | nil => rfl
  | cons c t ih =>
    obtain ⟨b, w⟩ := c
    simp only [cellsWf, Bool.and_eq_true, decide_eq_true_eq] at h
    simp only [readCells, if_neg (show b ≠ a by omega)]
    exact ih h.2 (by omega)

/-- A canonical tail stays one under a lower bound. -/
theorem cellsWf_mono {lo lo' : Nat} {t : List Host.Cell} (h : cellsWf font lo t = true) (hl : lo' ≤ lo) :
    cellsWf font lo' t = true := by
  cases t with
  | nil => rfl
  | cons c t =>
    simp only [cellsWf, Bool.and_eq_true, decide_eq_true_eq] at h ⊢
    exact ⟨⟨⟨by omega, h.1.1.2⟩, h.1.2⟩, h.2⟩

/-- Putting the entry of `a` before a tail above `a`. -/
theorem cellsWf_cellOf_append {lo a : Nat} {t : List Host.Cell} (w : Byte) (h : cellsWf font (a + 1) t = true)
    (hlo : lo ≤ a) (ha : a < Config.memSize) : cellsWf font lo (cellOf font a w ++ t) = true := by
  unfold cellOf
  by_cases hw : w = unlisted font a
  · simpa [hw] using cellsWf_mono h (by omega)
  · simp only [hw, if_false, List.singleton_append, cellsWf, Bool.and_eq_true, decide_eq_true_eq, bne_iff_ne, ne_eq,
      not_false_eq_true]
    exact ⟨⟨⟨hlo, ha⟩, trivial⟩, h⟩

/-- Writing a cell keeps the canonical form. -/
theorem cellsWf_writeCells {lo a : Nat} {t : List Host.Cell} (w : Byte) (h : cellsWf font lo t = true) (hlo : lo ≤ a)
    (ha : a < Config.memSize) : cellsWf font lo (writeCells font t a w) = true := by
  induction t generalizing lo with
  | nil => simpa [writeCells] using cellsWf_cellOf_append (t := []) w rfl hlo ha
  | cons c t ih =>
    obtain ⟨b, u⟩ := c
    have h' := h
    simp only [cellsWf, Bool.and_eq_true, decide_eq_true_eq] at h
    simp only [writeCells]
    split
    · refine cellsWf_cellOf_append w ?_ hlo ha
      simp only [cellsWf, Bool.and_eq_true, decide_eq_true_eq]
      exact ⟨⟨⟨by omega, h.1.1.2⟩, h.1.2⟩, h.2⟩
    · split
      · next hab => subst hab; exact cellsWf_cellOf_append w h.2 hlo ha
      · simp only [cellsWf, Bool.and_eq_true, decide_eq_true_eq]
        exact ⟨h.1, ih h.2 (by omega)⟩

/-- A read after a write of one cell. -/
theorem readCells_writeCells {lo : Nat} {t : List Host.Cell} (h : cellsWf font lo t = true) (a : Nat) (w : Byte) (b : Nat) :
    readCells font (writeCells font t a w) b = if a = b then w else readCells font t b := by
  induction t generalizing lo with
  | nil => simpa [writeCells] using readCells_cellOf_append a w [] b (fun _ => rfl)
  | cons c t ih =>
    obtain ⟨d, u⟩ := c
    have h' := h
    simp only [cellsWf, Bool.and_eq_true, decide_eq_true_eq] at h
    simp only [writeCells]
    split
    · next had =>
      refine readCells_cellOf_append a w _ b fun _ => ?_
      simp only [readCells, if_neg (show d ≠ a by omega)]
      exact readCells_of_lt h.2 (by omega)
    · split
      · next had =>
        subst had
        rw [readCells_cellOf_append a w t b fun _ => readCells_of_lt h.2 (by omega)]
        by_cases hb : a = b <;> simp [readCells, hb]
      · next hne =>
        by_cases hb : d = b
        · simp [readCells, hb, show a ≠ b by omega]
        · simp [readCells, hb, ih h.2]

/-- Every write keeps the canonical form. -/
theorem Memory.write_wf {m : Memory} (h : m.wf = true) (a : Nat) (w : Byte) : (m.write a w).wf = true := by
  unfold Memory.write
  split
  · next ha => exact cellsWf_writeCells w h (Nat.zero_le a) ha
  · exact h

/-- A read after a write: the byte written at its address, every other address as before. -/
theorem Memory.read_write {m : Memory} (h : m.wf = true) {a : Nat} (ha : a < 4096) (w : Byte) (b : Nat) :
    (m.write a w).read b = if a = b then w else m.read b := by
  simp only [Memory.write, show a < Config.memSize from ha, if_true, Memory.read]
  exact readCells_writeCells h a w b

/-- A block write keeps the canonical form. -/
theorem Memory.writeBytes_wf {m : Memory} (h : m.wf = true) (a : Nat) (ws : List Byte) :
    (m.writeBytes a ws).wf = true := by
  induction ws generalizing m a with
  | nil => exact h
  | cons w ws ih => exact ih (Memory.write_wf h a w) (a + 1)

/-- A read after a block write inside the memory: byte `k` of the block at `a + k`, every other address as before. -/
theorem Memory.read_writeBytes {m : Memory} (h : m.wf = true) {a : Nat} {ws : List Byte} (ha : a + ws.length ≤ 4096)
    (b : Nat) :
    (m.writeBytes a ws).read b = if a ≤ b ∧ b < a + ws.length then ws.getD (b - a) 0#8 else m.read b := by
  induction ws generalizing m a with
  | nil => simp [Memory.writeBytes, show ¬(a ≤ b ∧ b < a) by omega]
  | cons w ws ih =>
    simp only [List.length_cons] at ha
    rw [Memory.writeBytes, ih (Memory.write_wf h a w) (by omega), Memory.read_write h (by omega)]
    by_cases hb : a = b
    · subst hb; simp [show ¬(a + 1 ≤ a) by omega]
    · by_cases hin : a + 1 ≤ b ∧ b < a + 1 + ws.length
      · obtain ⟨k, rfl⟩ : ∃ k, b = a + 1 + k := ⟨b - (a + 1), by omega⟩
        rw [if_pos hin,
          if_pos (show a ≤ a + 1 + k ∧ a + 1 + k < a + (w :: ws).length by simp only [List.length_cons]; omega),
          show a + 1 + k - (a + 1) = k by omega, show a + 1 + k - a = k + 1 by omega, List.getD_cons_succ]
      · rw [if_neg hin, if_neg hb, if_neg (by simp only [List.length_cons]; omega)]

/-- The number of bytes a block read gives. -/
@[simp] theorem Memory.length_readBytes (m : Memory) (a n : Nat) : (m.readBytes a n).length = n := by
  induction n generalizing a with
  | zero => rfl
  | succ n ih => simp [Memory.readBytes, ih]

/-- Byte `k` of a block read is the byte at `a + k`. -/
theorem Memory.getD_readBytes (m : Memory) (a n k : Nat) (h : k < n) :
    (m.readBytes a n).getD k 0#8 = m.read (a + k) := by
  induction n generalizing a k with
  | zero => omega
  | succ n ih =>
    cases k with
    | zero => simp [Memory.readBytes]
    | succ k => rw [Memory.readBytes, List.getD_cons_succ, ih (a + 1) k (by omega), show a + 1 + k = a + (k + 1) by omega]

/-- An unlisted address below 0x050 reads as its byte of the font (R58). -/
theorem unlisted_font (font : Config.FontTable) {a : Nat} (h : a < 80) : unlisted font a = font[a] := dif_pos h

/-- An unlisted address above the font reads as 0 (R59). -/
theorem unlisted_above_font (font : Config.FontTable) {a : Nat} (h : 80 ≤ a) : unlisted font a = 0#8 :=
  dif_neg (Nat.not_lt.mpr h)

/-! ### The font is no memory content: no operation changes it (R6, R58) -/

@[simp] theorem Memory.write_font (m : Memory) (a : Nat) (w : Byte) : (m.write a w).font = m.font := by
  unfold Memory.write; split <;> rfl

@[simp] theorem Memory.writeBytes_font (m : Memory) (a : Nat) (ws : List Byte) : (m.writeBytes a ws).font = m.font := by
  induction ws generalizing m a with
  | nil => rfl
  | cons w ws ih => rw [Memory.writeBytes, ih, Memory.write_font]

@[simp] theorem Memory.ofCells_font (font : Config.FontTable) (cells : List Host.Cell) :
    (Memory.ofCells font cells).font = font := rfl

/-- Bringing cells into canonical form gives canonical form. -/
theorem Memory.ofCells_wf (font : Config.FontTable) (cells : List Host.Cell) : (Memory.ofCells font cells).wf = true := by
  suffices h : ∀ (l : List Host.Cell) (m : Memory), m.wf = true → m.font = font →
      (Memory.mk font (l.foldl (fun (m : Memory) c => m.write c.1 c.2) m).cells).wf = true from h cells ⟨font, []⟩ rfl rfl
  intro l
  induction l with
  | nil => rintro m h rfl; exact h
  | cons c l ih => exact fun m h e => ih _ (Memory.write_wf h c.1 c.2) ((m.write_font c.1 c.2).trans e)

/-- The bounds check answers `none` exactly when every byte of the block exists. -/
theorem blockFault?_eq_none {base count : Nat} : blockFault? base count = none ↔ (count = 0 ∨ base + count ≤ 4096) := by
  simp only [blockFault?, Config.memSize]
  split <;> simp <;> omega

/-- The bounds check answers the lowest address of the block that does not exist. -/
theorem blockFault?_eq_some {base count a : Nat} :
    blockFault? base count = some a ↔ (0 < count ∧ 4096 < base + count ∧ a = max base 4096) := by
  simp only [blockFault?, Config.memSize]
  split <;> simp <;> omega

end Sys2Proof.Machine
end

