-- ==== Sys2Proof/Laws/State.lean ====
section
/-! SUPPORT. The fields of a state after each named update: one lemma per field per update, all by `rfl`. -/

namespace Sys2Proof.Machine

/-! ### `State.writeV` -/

@[simp] theorem State.writeV_v (s : State) (x : Reg) (w : Byte) : (s.writeV x w).v = s.v.set x.val w := rfl
@[simp] theorem State.writeV_i (s : State) (x : Reg) (w : Byte) : (s.writeV x w).i = s.i := rfl
@[simp] theorem State.writeV_pc (s : State) (x : Reg) (w : Byte) : (s.writeV x w).pc = s.pc := rfl
@[simp] theorem State.writeV_sp (s : State) (x : Reg) (w : Byte) : (s.writeV x w).sp = s.sp := rfl
@[simp] theorem State.writeV_stk (s : State) (x : Reg) (w : Byte) : (s.writeV x w).stk = s.stk := rfl
@[simp] theorem State.writeV_dt (s : State) (x : Reg) (w : Byte) : (s.writeV x w).dt = s.dt := rfl
@[simp] theorem State.writeV_st (s : State) (x : Reg) (w : Byte) : (s.writeV x w).st = s.st := rfl
@[simp] theorem State.writeV_mem (s : State) (x : Reg) (w : Byte) : (s.writeV x w).mem = s.mem := rfl
@[simp] theorem State.writeV_fb (s : State) (x : Reg) (w : Byte) : (s.writeV x w).fb = s.fb := rfl
@[simp] theorem State.writeV_changed (s : State) (x : Reg) (w : Byte) : (s.writeV x w).changed = s.changed := rfl
@[simp] theorem State.writeV_keys (s : State) (x : Reg) (w : Byte) : (s.writeV x w).keys = s.keys := rfl
@[simp] theorem State.writeV_initialized (s : State) (x : Reg) (w : Byte) : (s.writeV x w).initialized = s.initialized := rfl
@[simp] theorem State.writeV_running (s : State) (x : Reg) (w : Byte) : (s.writeV x w).running = s.running := rfl
@[simp] theorem State.writeV_paused (s : State) (x : Reg) (w : Byte) : (s.writeV x w).paused = s.paused := rfl
@[simp] theorem State.writeV_resetPending (s : State) (x : Reg) (w : Byte) : (s.writeV x w).resetPending = s.resetPending := rfl
@[simp] theorem State.writeV_fault (s : State) (x : Reg) (w : Byte) : (s.writeV x w).fault = s.fault := rfl
@[simp] theorem State.writeV_rom (s : State) (x : Reg) (w : Byte) : (s.writeV x w).rom = s.rom := rfl
@[simp] theorem State.writeV_cycleDelayMs (s : State) (x : Reg) (w : Byte) : (s.writeV x w).cycleDelayMs = s.cycleDelayMs := rfl
@[simp] theorem State.writeV_inputs (s : State) (x : Reg) (w : Byte) : (s.writeV x w).inputs = s.inputs := rfl
@[simp] theorem State.writeV_strobes (s : State) (x : Reg) (w : Byte) : (s.writeV x w).strobes = s.strobes := rfl
@[simp] theorem State.writeV_answers (s : State) (x : Reg) (w : Byte) : (s.writeV x w).answers = s.answers := rfl
@[simp] theorem State.writeV_vfPriority (s : State) (x : Reg) (w : Byte) : (s.writeV x w).vfPriority = s.vfPriority := rfl
@[simp] theorem State.writeV_keySelect (s : State) (x : Reg) (w : Byte) : (s.writeV x w).keySelect = s.keySelect := rfl
@[simp] theorem State.writeV_freeIdx (s : State) (x : Reg) (w : Byte) : (s.writeV x w).freeIdx = s.freeIdx := rfl

/-! ### `State.advance` -/

@[simp] theorem State.advance_v (s : State) (n : Word) : (s.advance n).v = s.v := rfl
@[simp] theorem State.advance_i (s : State) (n : Word) : (s.advance n).i = s.i := rfl
@[simp] theorem State.advance_pc (s : State) (n : Word) : (s.advance n).pc = s.pc + n := rfl
@[simp] theorem State.advance_sp (s : State) (n : Word) : (s.advance n).sp = s.sp := rfl
@[simp] theorem State.advance_stk (s : State) (n : Word) : (s.advance n).stk = s.stk := rfl
@[simp] theorem State.advance_dt (s : State) (n : Word) : (s.advance n).dt = s.dt := rfl
@[simp] theorem State.advance_st (s : State) (n : Word) : (s.advance n).st = s.st := rfl
@[simp] theorem State.advance_mem (s : State) (n : Word) : (s.advance n).mem = s.mem := rfl
@[simp] theorem State.advance_fb (s : State) (n : Word) : (s.advance n).fb = s.fb := rfl
@[simp] theorem State.advance_changed (s : State) (n : Word) : (s.advance n).changed = s.changed := rfl
@[simp] theorem State.advance_keys (s : State) (n : Word) : (s.advance n).keys = s.keys := rfl
@[simp] theorem State.advance_initialized (s : State) (n : Word) : (s.advance n).initialized = s.initialized := rfl
@[simp] theorem State.advance_running (s : State) (n : Word) : (s.advance n).running = s.running := rfl
@[simp] theorem State.advance_paused (s : State) (n : Word) : (s.advance n).paused = s.paused := rfl
@[simp] theorem State.advance_resetPending (s : State) (n : Word) : (s.advance n).resetPending = s.resetPending := rfl
@[simp] theorem State.advance_fault (s : State) (n : Word) : (s.advance n).fault = s.fault := rfl
@[simp] theorem State.advance_rom (s : State) (n : Word) : (s.advance n).rom = s.rom := rfl
@[simp] theorem State.advance_cycleDelayMs (s : State) (n : Word) : (s.advance n).cycleDelayMs = s.cycleDelayMs := rfl
@[simp] theorem State.advance_inputs (s : State) (n : Word) : (s.advance n).inputs = s.inputs := rfl
@[simp] theorem State.advance_strobes (s : State) (n : Word) : (s.advance n).strobes = s.strobes := rfl
@[simp] theorem State.advance_answers (s : State) (n : Word) : (s.advance n).answers = s.answers := rfl
@[simp] theorem State.advance_vfPriority (s : State) (n : Word) : (s.advance n).vfPriority = s.vfPriority := rfl
@[simp] theorem State.advance_keySelect (s : State) (n : Word) : (s.advance n).keySelect = s.keySelect := rfl
@[simp] theorem State.advance_freeIdx (s : State) (n : Word) : (s.advance n).freeIdx = s.freeIdx := rfl

/-! ### `State.skipIf` -/

@[simp] theorem State.skipIf_v (s : State) (c : Bool) : (s.skipIf c).v = s.v := rfl
@[simp] theorem State.skipIf_i (s : State) (c : Bool) : (s.skipIf c).i = s.i := rfl
@[simp] theorem State.skipIf_pc (s : State) (c : Bool) : (s.skipIf c).pc = s.pc + (if c then 4#16 else 2#16) := rfl
@[simp] theorem State.skipIf_sp (s : State) (c : Bool) : (s.skipIf c).sp = s.sp := rfl
@[simp] theorem State.skipIf_stk (s : State) (c : Bool) : (s.skipIf c).stk = s.stk := rfl
@[simp] theorem State.skipIf_dt (s : State) (c : Bool) : (s.skipIf c).dt = s.dt := rfl
@[simp] theorem State.skipIf_st (s : State) (c : Bool) : (s.skipIf c).st = s.st := rfl
@[simp] theorem State.skipIf_mem (s : State) (c : Bool) : (s.skipIf c).mem = s.mem := rfl
@[simp] theorem State.skipIf_fb (s : State) (c : Bool) : (s.skipIf c).fb = s.fb := rfl
@[simp] theorem State.skipIf_changed (s : State) (c : Bool) : (s.skipIf c).changed = s.changed := rfl
@[simp] theorem State.skipIf_keys (s : State) (c : Bool) : (s.skipIf c).keys = s.keys := rfl
@[simp] theorem State.skipIf_initialized (s : State) (c : Bool) : (s.skipIf c).initialized = s.initialized := rfl
@[simp] theorem State.skipIf_running (s : State) (c : Bool) : (s.skipIf c).running = s.running := rfl
@[simp] theorem State.skipIf_paused (s : State) (c : Bool) : (s.skipIf c).paused = s.paused := rfl
@[simp] theorem State.skipIf_resetPending (s : State) (c : Bool) : (s.skipIf c).resetPending = s.resetPending := rfl
@[simp] theorem State.skipIf_fault (s : State) (c : Bool) : (s.skipIf c).fault = s.fault := rfl
@[simp] theorem State.skipIf_rom (s : State) (c : Bool) : (s.skipIf c).rom = s.rom := rfl
@[simp] theorem State.skipIf_cycleDelayMs (s : State) (c : Bool) : (s.skipIf c).cycleDelayMs = s.cycleDelayMs := rfl
@[simp] theorem State.skipIf_inputs (s : State) (c : Bool) : (s.skipIf c).inputs = s.inputs := rfl
@[simp] theorem State.skipIf_strobes (s : State) (c : Bool) : (s.skipIf c).strobes = s.strobes := rfl
@[simp] theorem State.skipIf_answers (s : State) (c : Bool) : (s.skipIf c).answers = s.answers := rfl
@[simp] theorem State.skipIf_vfPriority (s : State) (c : Bool) : (s.skipIf c).vfPriority = s.vfPriority := rfl
@[simp] theorem State.skipIf_keySelect (s : State) (c : Bool) : (s.skipIf c).keySelect = s.keySelect := rfl
@[simp] theorem State.skipIf_freeIdx (s : State) (c : Bool) : (s.skipIf c).freeIdx = s.freeIdx := rfl

/-! ### `State.jump` -/

@[simp] theorem State.jump_v (s : State) (a : Word) : (s.jump a).v = s.v := rfl
@[simp] theorem State.jump_i (s : State) (a : Word) : (s.jump a).i = s.i := rfl
@[simp] theorem State.jump_pc (s : State) (a : Word) : (s.jump a).pc = a := rfl
@[simp] theorem State.jump_sp (s : State) (a : Word) : (s.jump a).sp = s.sp := rfl
@[simp] theorem State.jump_stk (s : State) (a : Word) : (s.jump a).stk = s.stk := rfl
@[simp] theorem State.jump_dt (s : State) (a : Word) : (s.jump a).dt = s.dt := rfl
@[simp] theorem State.jump_st (s : State) (a : Word) : (s.jump a).st = s.st := rfl
@[simp] theorem State.jump_mem (s : State) (a : Word) : (s.jump a).mem = s.mem := rfl
@[simp] theorem State.jump_fb (s : State) (a : Word) : (s.jump a).fb = s.fb := rfl
@[simp] theorem State.jump_changed (s : State) (a : Word) : (s.jump a).changed = s.changed := rfl
@[simp] theorem State.jump_keys (s : State) (a : Word) : (s.jump a).keys = s.keys := rfl
@[simp] theorem State.jump_initialized (s : State) (a : Word) : (s.jump a).initialized = s.initialized := rfl
@[simp] theorem State.jump_running (s : State) (a : Word) : (s.jump a).running = s.running := rfl
@[simp] theorem State.jump_paused (s : State) (a : Word) : (s.jump a).paused = s.paused := rfl
@[simp] theorem State.jump_resetPending (s : State) (a : Word) : (s.jump a).resetPending = s.resetPending := rfl
@[simp] theorem State.jump_fault (s : State) (a : Word) : (s.jump a).fault = s.fault := rfl
@[simp] theorem State.jump_rom (s : State) (a : Word) : (s.jump a).rom = s.rom := rfl
@[simp] theorem State.jump_cycleDelayMs (s : State) (a : Word) : (s.jump a).cycleDelayMs = s.cycleDelayMs := rfl
@[simp] theorem State.jump_inputs (s : State) (a : Word) : (s.jump a).inputs = s.inputs := rfl
@[simp] theorem State.jump_strobes (s : State) (a : Word) : (s.jump a).strobes = s.strobes := rfl
@[simp] theorem State.jump_answers (s : State) (a : Word) : (s.jump a).answers = s.answers := rfl
@[simp] theorem State.jump_vfPriority (s : State) (a : Word) : (s.jump a).vfPriority = s.vfPriority := rfl
@[simp] theorem State.jump_keySelect (s : State) (a : Word) : (s.jump a).keySelect = s.keySelect := rfl
@[simp] theorem State.jump_freeIdx (s : State) (a : Word) : (s.jump a).freeIdx = s.freeIdx := rfl

/-! ### `State.takeFault` -/

@[simp] theorem State.takeFault_v (s : State) (f : Fault) : (s.takeFault f).v = s.v := rfl
@[simp] theorem State.takeFault_i (s : State) (f : Fault) : (s.takeFault f).i = s.i := rfl
@[simp] theorem State.takeFault_pc (s : State) (f : Fault) : (s.takeFault f).pc = s.pc := rfl
@[simp] theorem State.takeFault_sp (s : State) (f : Fault) : (s.takeFault f).sp = s.sp := rfl
@[simp] theorem State.takeFault_stk (s : State) (f : Fault) : (s.takeFault f).stk = s.stk := rfl
@[simp] theorem State.takeFault_dt (s : State) (f : Fault) : (s.takeFault f).dt = s.dt := rfl
@[simp] theorem State.takeFault_st (s : State) (f : Fault) : (s.takeFault f).st = s.st := rfl
@[simp] theorem State.takeFault_mem (s : State) (f : Fault) : (s.takeFault f).mem = s.mem := rfl
@[simp] theorem State.takeFault_fb (s : State) (f : Fault) : (s.takeFault f).fb = s.fb := rfl
@[simp] theorem State.takeFault_changed (s : State) (f : Fault) : (s.takeFault f).changed = s.changed := rfl
@[simp] theorem State.takeFault_keys (s : State) (f : Fault) : (s.takeFault f).keys = s.keys := rfl
@[simp] theorem State.takeFault_initialized (s : State) (f : Fault) : (s.takeFault f).initialized = s.initialized := rfl
@[simp] theorem State.takeFault_running (s : State) (f : Fault) : (s.takeFault f).running = false := rfl
@[simp] theorem State.takeFault_paused (s : State) (f : Fault) : (s.takeFault f).paused = s.paused := rfl
@[simp] theorem State.takeFault_resetPending (s : State) (f : Fault) : (s.takeFault f).resetPending = s.resetPending := rfl
@[simp] theorem State.takeFault_fault (s : State) (f : Fault) : (s.takeFault f).fault = some f := rfl
@[simp] theorem State.takeFault_rom (s : State) (f : Fault) : (s.takeFault f).rom = s.rom := rfl
@[simp] theorem State.takeFault_cycleDelayMs (s : State) (f : Fault) : (s.takeFault f).cycleDelayMs = s.cycleDelayMs := rfl
@[simp] theorem State.takeFault_inputs (s : State) (f : Fault) : (s.takeFault f).inputs = s.inputs := rfl
@[simp] theorem State.takeFault_strobes (s : State) (f : Fault) : (s.takeFault f).strobes = s.strobes := rfl
@[simp] theorem State.takeFault_answers (s : State) (f : Fault) : (s.takeFault f).answers = s.answers := rfl
@[simp] theorem State.takeFault_vfPriority (s : State) (f : Fault) : (s.takeFault f).vfPriority = s.vfPriority := rfl
@[simp] theorem State.takeFault_keySelect (s : State) (f : Fault) : (s.takeFault f).keySelect = s.keySelect := rfl
@[simp] theorem State.takeFault_freeIdx (s : State) (f : Fault) : (s.takeFault f).freeIdx = s.freeIdx := rfl

/-! ### `State.tickTimers` -/

@[simp] theorem State.tickTimers_v (s : State) : s.tickTimers.v = s.v := rfl
@[simp] theorem State.tickTimers_i (s : State) : s.tickTimers.i = s.i := rfl
@[simp] theorem State.tickTimers_pc (s : State) : s.tickTimers.pc = s.pc := rfl
@[simp] theorem State.tickTimers_sp (s : State) : s.tickTimers.sp = s.sp := rfl
@[simp] theorem State.tickTimers_stk (s : State) : s.tickTimers.stk = s.stk := rfl
@[simp] theorem State.tickTimers_dt (s : State) : s.tickTimers.dt = countDown s.dt := rfl
@[simp] theorem State.tickTimers_st (s : State) : s.tickTimers.st = countDown s.st := rfl
@[simp] theorem State.tickTimers_mem (s : State) : s.tickTimers.mem = s.mem := rfl
@[simp] theorem State.tickTimers_fb (s : State) : s.tickTimers.fb = s.fb := rfl
@[simp] theorem State.tickTimers_changed (s : State) : s.tickTimers.changed = s.changed := rfl
@[simp] theorem State.tickTimers_keys (s : State) : s.tickTimers.keys = s.keys := rfl
@[simp] theorem State.tickTimers_initialized (s : State) : s.tickTimers.initialized = s.initialized := rfl
@[simp] theorem State.tickTimers_running (s : State) : s.tickTimers.running = s.running := rfl
@[simp] theorem State.tickTimers_paused (s : State) : s.tickTimers.paused = s.paused := rfl
@[simp] theorem State.tickTimers_resetPending (s : State) : s.tickTimers.resetPending = s.resetPending := rfl
@[simp] theorem State.tickTimers_fault (s : State) : s.tickTimers.fault = s.fault := rfl
@[simp] theorem State.tickTimers_rom (s : State) : s.tickTimers.rom = s.rom := rfl
@[simp] theorem State.tickTimers_cycleDelayMs (s : State) : s.tickTimers.cycleDelayMs = s.cycleDelayMs := rfl
@[simp] theorem State.tickTimers_inputs (s : State) : s.tickTimers.inputs = s.inputs := rfl
@[simp] theorem State.tickTimers_strobes (s : State) : s.tickTimers.strobes = s.strobes := rfl
@[simp] theorem State.tickTimers_answers (s : State) : s.tickTimers.answers = s.answers := rfl
@[simp] theorem State.tickTimers_vfPriority (s : State) : s.tickTimers.vfPriority = s.vfPriority := rfl
@[simp] theorem State.tickTimers_keySelect (s : State) : s.tickTimers.keySelect = s.keySelect := rfl
@[simp] theorem State.tickTimers_freeIdx (s : State) : s.tickTimers.freeIdx = s.freeIdx := rfl

/-! ### `State.notify` -/

@[simp] theorem State.notify_v (s : State) : s.notify.v = s.v := rfl
@[simp] theorem State.notify_i (s : State) : s.notify.i = s.i := rfl
@[simp] theorem State.notify_pc (s : State) : s.notify.pc = s.pc := rfl
@[simp] theorem State.notify_sp (s : State) : s.notify.sp = s.sp := rfl
@[simp] theorem State.notify_stk (s : State) : s.notify.stk = s.stk := rfl
@[simp] theorem State.notify_dt (s : State) : s.notify.dt = s.dt := rfl
@[simp] theorem State.notify_st (s : State) : s.notify.st = s.st := rfl
@[simp] theorem State.notify_mem (s : State) : s.notify.mem = s.mem := rfl
@[simp] theorem State.notify_fb (s : State) : s.notify.fb = s.fb := rfl
@[simp] theorem State.notify_changed (s : State) : s.notify.changed = false := rfl
@[simp] theorem State.notify_keys (s : State) : s.notify.keys = s.keys := rfl
@[simp] theorem State.notify_initialized (s : State) : s.notify.initialized = s.initialized := rfl
@[simp] theorem State.notify_running (s : State) : s.notify.running = s.running := rfl
@[simp] theorem State.notify_paused (s : State) : s.notify.paused = s.paused := rfl
@[simp] theorem State.notify_resetPending (s : State) : s.notify.resetPending = s.resetPending := rfl
@[simp] theorem State.notify_fault (s : State) : s.notify.fault = s.fault := rfl
@[simp] theorem State.notify_rom (s : State) : s.notify.rom = s.rom := rfl
@[simp] theorem State.notify_cycleDelayMs (s : State) : s.notify.cycleDelayMs = s.cycleDelayMs := rfl
@[simp] theorem State.notify_inputs (s : State) : s.notify.inputs = s.inputs := rfl
@[simp] theorem State.notify_strobes (s : State) : s.notify.strobes = (if s.changed then [.displayChanged, .cycleDone] else [.cycleDone]) := rfl
@[simp] theorem State.notify_answers (s : State) : s.notify.answers = s.answers := rfl
@[simp] theorem State.notify_vfPriority (s : State) : s.notify.vfPriority = s.vfPriority := rfl
@[simp] theorem State.notify_keySelect (s : State) : s.notify.keySelect = s.keySelect := rfl
@[simp] theorem State.notify_freeIdx (s : State) : s.notify.freeIdx = s.freeIdx := rfl

/-! ### `State.countKeyChoice` -/

@[simp] theorem State.countKeyChoice_v (s : State) : s.countKeyChoice.v = s.v := rfl
@[simp] theorem State.countKeyChoice_i (s : State) : s.countKeyChoice.i = s.i := rfl
@[simp] theorem State.countKeyChoice_pc (s : State) : s.countKeyChoice.pc = s.pc := rfl
@[simp] theorem State.countKeyChoice_sp (s : State) : s.countKeyChoice.sp = s.sp := rfl
@[simp] theorem State.countKeyChoice_stk (s : State) : s.countKeyChoice.stk = s.stk := rfl
@[simp] theorem State.countKeyChoice_dt (s : State) : s.countKeyChoice.dt = s.dt := rfl
@[simp] theorem State.countKeyChoice_st (s : State) : s.countKeyChoice.st = s.st := rfl
@[simp] theorem State.countKeyChoice_mem (s : State) : s.countKeyChoice.mem = s.mem := rfl
@[simp] theorem State.countKeyChoice_fb (s : State) : s.countKeyChoice.fb = s.fb := rfl
@[simp] theorem State.countKeyChoice_changed (s : State) : s.countKeyChoice.changed = s.changed := rfl
@[simp] theorem State.countKeyChoice_keys (s : State) : s.countKeyChoice.keys = s.keys := rfl
@[simp] theorem State.countKeyChoice_initialized (s : State) : s.countKeyChoice.initialized = s.initialized := rfl
@[simp] theorem State.countKeyChoice_running (s : State) : s.countKeyChoice.running = s.running := rfl
@[simp] theorem State.countKeyChoice_paused (s : State) : s.countKeyChoice.paused = s.paused := rfl
@[simp] theorem State.countKeyChoice_resetPending (s : State) : s.countKeyChoice.resetPending = s.resetPending := rfl
@[simp] theorem State.countKeyChoice_fault (s : State) : s.countKeyChoice.fault = s.fault := rfl
@[simp] theorem State.countKeyChoice_rom (s : State) : s.countKeyChoice.rom = s.rom := rfl
@[simp] theorem State.countKeyChoice_cycleDelayMs (s : State) : s.countKeyChoice.cycleDelayMs = s.cycleDelayMs := rfl
@[simp] theorem State.countKeyChoice_inputs (s : State) : s.countKeyChoice.inputs = s.inputs := rfl
@[simp] theorem State.countKeyChoice_strobes (s : State) : s.countKeyChoice.strobes = s.strobes := rfl
@[simp] theorem State.countKeyChoice_answers (s : State) : s.countKeyChoice.answers = s.answers := rfl
@[simp] theorem State.countKeyChoice_vfPriority (s : State) : s.countKeyChoice.vfPriority = s.vfPriority := rfl
@[simp] theorem State.countKeyChoice_keySelect (s : State) : s.countKeyChoice.keySelect = s.keySelect := rfl
@[simp] theorem State.countKeyChoice_freeIdx (s : State) :
    s.countKeyChoice.freeIdx =
      match s.keySelect with
      | .lowest => s.freeIdx
      | .any => s.freeIdx + 1 := rfl

/-! ### `State.writeFlag` and `State.writeResultFlag` -/

@[simp] theorem State.writeFlag_v (s : State) (c : Bool) : (s.writeFlag c).v = s.v.set VF.val (flagByte c) := rfl
@[simp] theorem State.writeFlag_i (s : State) (c : Bool) : (s.writeFlag c).i = s.i := rfl
@[simp] theorem State.writeFlag_pc (s : State) (c : Bool) : (s.writeFlag c).pc = s.pc := rfl
@[simp] theorem State.writeFlag_sp (s : State) (c : Bool) : (s.writeFlag c).sp = s.sp := rfl
@[simp] theorem State.writeFlag_stk (s : State) (c : Bool) : (s.writeFlag c).stk = s.stk := rfl
@[simp] theorem State.writeFlag_dt (s : State) (c : Bool) : (s.writeFlag c).dt = s.dt := rfl
@[simp] theorem State.writeFlag_st (s : State) (c : Bool) : (s.writeFlag c).st = s.st := rfl
@[simp] theorem State.writeFlag_mem (s : State) (c : Bool) : (s.writeFlag c).mem = s.mem := rfl
@[simp] theorem State.writeFlag_fb (s : State) (c : Bool) : (s.writeFlag c).fb = s.fb := rfl
@[simp] theorem State.writeFlag_changed (s : State) (c : Bool) : (s.writeFlag c).changed = s.changed := rfl
@[simp] theorem State.writeFlag_keys (s : State) (c : Bool) : (s.writeFlag c).keys = s.keys := rfl
@[simp] theorem State.writeFlag_initialized (s : State) (c : Bool) : (s.writeFlag c).initialized = s.initialized := rfl
@[simp] theorem State.writeFlag_running (s : State) (c : Bool) : (s.writeFlag c).running = s.running := rfl
@[simp] theorem State.writeFlag_paused (s : State) (c : Bool) : (s.writeFlag c).paused = s.paused := rfl
@[simp] theorem State.writeFlag_resetPending (s : State) (c : Bool) : (s.writeFlag c).resetPending = s.resetPending := rfl
@[simp] theorem State.writeFlag_fault (s : State) (c : Bool) : (s.writeFlag c).fault = s.fault := rfl
@[simp] theorem State.writeFlag_rom (s : State) (c : Bool) : (s.writeFlag c).rom = s.rom := rfl
@[simp] theorem State.writeFlag_cycleDelayMs (s : State) (c : Bool) : (s.writeFlag c).cycleDelayMs = s.cycleDelayMs := rfl
@[simp] theorem State.writeFlag_inputs (s : State) (c : Bool) : (s.writeFlag c).inputs = s.inputs := rfl
@[simp] theorem State.writeFlag_strobes (s : State) (c : Bool) : (s.writeFlag c).strobes = s.strobes := rfl
@[simp] theorem State.writeFlag_answers (s : State) (c : Bool) : (s.writeFlag c).answers = s.answers := rfl
@[simp] theorem State.writeFlag_vfPriority (s : State) (c : Bool) : (s.writeFlag c).vfPriority = s.vfPriority := rfl
@[simp] theorem State.writeFlag_keySelect (s : State) (c : Bool) : (s.writeFlag c).keySelect = s.keySelect := rfl
@[simp] theorem State.writeFlag_freeIdx (s : State) (c : Bool) : (s.writeFlag c).freeIdx = s.freeIdx := rfl

@[simp] theorem State.writeResultFlag_i (s : State) (x : Reg) (w : Byte) (c : Bool) :
    (s.writeResultFlag x w c).i = s.i := rfl
@[simp] theorem State.writeResultFlag_pc (s : State) (x : Reg) (w : Byte) (c : Bool) :
    (s.writeResultFlag x w c).pc = s.pc := rfl
@[simp] theorem State.writeResultFlag_sp (s : State) (x : Reg) (w : Byte) (c : Bool) :
    (s.writeResultFlag x w c).sp = s.sp := rfl
@[simp] theorem State.writeResultFlag_stk (s : State) (x : Reg) (w : Byte) (c : Bool) :
    (s.writeResultFlag x w c).stk = s.stk := rfl
@[simp] theorem State.writeResultFlag_dt (s : State) (x : Reg) (w : Byte) (c : Bool) :
    (s.writeResultFlag x w c).dt = s.dt := rfl
@[simp] theorem State.writeResultFlag_st (s : State) (x : Reg) (w : Byte) (c : Bool) :
    (s.writeResultFlag x w c).st = s.st := rfl
@[simp] theorem State.writeResultFlag_mem (s : State) (x : Reg) (w : Byte) (c : Bool) :
    (s.writeResultFlag x w c).mem = s.mem := rfl
@[simp] theorem State.writeResultFlag_fb (s : State) (x : Reg) (w : Byte) (c : Bool) :
    (s.writeResultFlag x w c).fb = s.fb := rfl
@[simp] theorem State.writeResultFlag_changed (s : State) (x : Reg) (w : Byte) (c : Bool) :
    (s.writeResultFlag x w c).changed = s.changed := rfl
@[simp] theorem State.writeResultFlag_keys (s : State) (x : Reg) (w : Byte) (c : Bool) :
    (s.writeResultFlag x w c).keys = s.keys := rfl
@[simp] theorem State.writeResultFlag_initialized (s : State) (x : Reg) (w : Byte) (c : Bool) :
    (s.writeResultFlag x w c).initialized = s.initialized := rfl
@[simp] theorem State.writeResultFlag_running (s : State) (x : Reg) (w : Byte) (c : Bool) :
    (s.writeResultFlag x w c).running = s.running := rfl
@[simp] theorem State.writeResultFlag_paused (s : State) (x : Reg) (w : Byte) (c : Bool) :
    (s.writeResultFlag x w c).paused = s.paused := rfl
@[simp] theorem State.writeResultFlag_resetPending (s : State) (x : Reg) (w : Byte) (c : Bool) :
    (s.writeResultFlag x w c).resetPending = s.resetPending := rfl
@[simp] theorem State.writeResultFlag_fault (s : State) (x : Reg) (w : Byte) (c : Bool) :
    (s.writeResultFlag x w c).fault = s.fault := rfl
@[simp] theorem State.writeResultFlag_rom (s : State) (x : Reg) (w : Byte) (c : Bool) :
    (s.writeResultFlag x w c).rom = s.rom := rfl
@[simp] theorem State.writeResultFlag_cycleDelayMs (s : State) (x : Reg) (w : Byte) (c : Bool) :
    (s.writeResultFlag x w c).cycleDelayMs = s.cycleDelayMs := rfl
@[simp] theorem State.writeResultFlag_inputs (s : State) (x : Reg) (w : Byte) (c : Bool) :
    (s.writeResultFlag x w c).inputs = s.inputs := rfl
@[simp] theorem State.writeResultFlag_strobes (s : State) (x : Reg) (w : Byte) (c : Bool) :
    (s.writeResultFlag x w c).strobes = s.strobes := rfl
@[simp] theorem State.writeResultFlag_answers (s : State) (x : Reg) (w : Byte) (c : Bool) :
    (s.writeResultFlag x w c).answers = s.answers := rfl
@[simp] theorem State.writeResultFlag_vfPriority (s : State) (x : Reg) (w : Byte) (c : Bool) :
    (s.writeResultFlag x w c).vfPriority = s.vfPriority := rfl
@[simp] theorem State.writeResultFlag_keySelect (s : State) (x : Reg) (w : Byte) (c : Bool) :
    (s.writeResultFlag x w c).keySelect = s.keySelect := rfl
@[simp] theorem State.writeResultFlag_freeIdx (s : State) (x : Reg) (w : Byte) (c : Bool) :
    (s.writeResultFlag x w c).freeIdx = s.freeIdx := rfl
@[simp] theorem State.writeResultFlag_v (s : State) (x : Reg) (w : Byte) (c : Bool) :
    (s.writeResultFlag x w c).v =
      match s.vfPriority with
      | .flag => (s.v.set x.val w).set VF.val (flagByte c)
      | .result => (s.v.set VF.val (flagByte c)).set x.val w := rfl

end Sys2Proof.Machine
end

