-- ==== Sys2Proof/Laws/Ops.lean ====
section
/-! SUPPORT. One lemma per shared operation over registers, stack, operands, faults, fetch, pixels and the host's commands:
what it does, to be cited in place of its definition. -/

namespace Sys2Proof.Machine

/-! ### Registers and flags -/

/-- A register read after a register write. -/
theorem State.readV_writeV (s : State) (x : Reg) (w : Byte) (z : Reg) :
    (s.writeV x w).readV z = if x = z then w else s.readV z := by
  simp only [State.readV, State.writeV, Vector.getElem_set, Fin.val_inj]

/-- A register read after a flag write. -/
theorem State.readV_writeFlag (s : State) (f : Bool) (z : Reg) :
    (s.writeFlag f).readV z = if VF = z then flagByte f else s.readV z := s.readV_writeV VF _ z

/-- A register read after a result and a flag were written: when both went to VF it holds the one that `VF_PRIORITY` names
(R114). -/
theorem State.readV_writeResultFlag (s : State) (x : Reg) (w : Byte) (f : Bool) (z : Reg) :
    (s.writeResultFlag x w f).readV z =
      if VF = z ∧ (x = z → s.vfPriority = .flag) then flagByte f else if x = z then w else s.readV z := by
  cases h : s.vfPriority with
  | flag =>
    have e : (s.writeResultFlag x w f).readV z = ((s.writeV x w).writeFlag f).readV z := by
      simp only [State.readV, State.writeResultFlag_v, h]; rfl
    simp [e, State.readV_writeFlag, State.readV_writeV]
  | result =>
    have e : (s.writeResultFlag x w f).readV z = ((s.writeFlag f).writeV x w).readV z := by
      simp only [State.readV, State.writeResultFlag_v, h]; rfl
    rw [e, State.readV_writeV, State.readV_writeFlag]
    by_cases hx : x = z <;> simp [hx]

/-- A flag is stored as the number 0 or 1 (R22). -/
@[simp] theorem toNat_flagByte (f : Bool) : (flagByte f).toNat = if f then 1 else 0 := by cases f <;> rfl

/-- A register read of the reset register file. -/
@[simp] theorem State.readV_reset (x : Reg) : State.reset.readV x = 0#8 := by simp [State.readV, State.reset]

/-- The registers after a load of V0 to VX. -/
theorem State.getElem_loadedRegs (s : State) (x k : Reg) :
    (s.loadedRegs x)[k.val] = if k.val ≤ x.val then s.mem.read (s.effAddr k.val) else s.readV k := by
  simp [State.loadedRegs]

/-- FX55 stores `X + 1` bytes. -/
@[simp] theorem State.length_regsUpTo (s : State) (x : Reg) : (s.regsUpTo x).length = x.val + 1 := by
  simp [State.regsUpTo, blockCount]

/-- Byte `k` that FX55 stores is `V[k]`. -/
theorem State.getD_regsUpTo (s : State) (x k : Reg) (h : k.val ≤ x.val) : (s.regsUpTo x).getD k.val 0#8 = s.readV k := by
  simp [State.regsUpTo, blockCount, State.readV, List.getD, show k.val < x.val + 1 by omega]

/-! ### Stack -/

/-- A push succeeds exactly below 16 entries, writes `STK[SP]` and counts up. -/
theorem State.push?_eq_some {s t : State} {w : Word} :
    s.push? w = some t ↔
      ∃ h : s.sp.val < 16, t = { s with stk := s.stk.set s.sp.val w, sp := ⟨s.sp.val + 1, by omega⟩ } := by
  simp only [State.push?]
  split
  · next h => simp [h, eq_comm]
  · next h => simp [h]

/-- A push fails exactly at 16 entries. -/
theorem State.push?_eq_none {s : State} {w : Word} : s.push? w = none ↔ s.sp.val = 16 := by
  simp only [State.push?]
  split <;> simp <;> omega

/-- A pop succeeds exactly above 0 entries, counts down and reads `STK[SP]`. -/
theorem State.pop?_eq_some {s t : State} {w : Word} :
    s.pop? = some (w, t) ↔
      ∃ h : 0 < s.sp.val, w = s.stk[s.sp.val - 1] ∧ t = { s with sp := ⟨s.sp.val - 1, by omega⟩ } := by
  simp only [State.pop?]
  split
  · next h => simp [h, eq_comm]
  · next h => simp [h]

/-- A pop fails exactly with an empty stack. -/
theorem State.pop?_eq_none {s : State} : s.pop? = none ↔ s.sp.val = 0 := by
  simp only [State.pop?]
  split <;> simp <;> omega

/-! ### Operands -/

/-- A 12-bit immediate keeps its value. -/
@[simp] theorem toNat_immNNN (nnn : BitVec 12) : (immNNN nnn).toNat = nnn.toNat := by
  simp only [immNNN, BitVec.toNat_setWidth]
  exact Nat.mod_eq_of_lt (by omega)

/-- A register value keeps its value as a word. -/
@[simp] theorem toNat_zextV (w : Byte) : (zextV w).toNat = w.toNat := by
  simp only [zextV, BitVec.toNat_setWidth]
  exact Nat.mod_eq_of_lt (by omega)

/-- The address of a glyph is the unreduced product. -/
@[simp] theorem toNat_glyphAddr (w : Byte) : (glyphAddr w).toNat = w.toNat * 5 := by
  simp only [glyphAddr, BitVec.toNat_mul, toNat_zextV]
  exact Nat.mod_eq_of_lt (by have := w.isLt; simp; omega)

/-- A register value names a key exactly when it is at most 15. -/
theorem keyIndex?_eq_some {w : Byte} {k : Fin 16} : keyIndex? w = some k ↔ w.toNat = k.val := by
  simp only [keyIndex?]
  split
  · next h => simp [Fin.ext_iff]
  · next h => simp; omega

/-- A register value names no key exactly when it is above 15. -/
theorem keyIndex?_eq_none {w : Byte} : keyIndex? w = none ↔ 15 < w.toNat := by
  simp only [keyIndex?]
  split <;> simp <;> omega

/-- The pressed keys are those with `K[k] = 1`. -/
@[simp] theorem State.mem_pressedKeys {s : State} {k : Fin 16} : k ∈ s.pressedKeys ↔ s.keyDown k = true := by
  simp [State.pressedKeys]

/-- A key that is picked is one of those pressed. -/
theorem mem_of_pickKey {p : Config.KeySelect} {pressed : List (Fin 16)} {n : Nat} {k : Fin 16}
    (h : pickKey p pressed n = some k) : k ∈ pressed := by
  cases p with
  | lowest => exact List.mem_of_head? h
  | any => exact List.mem_of_getElem? h

/-- No key is picked exactly when none is pressed. -/
theorem pickKey_eq_none {p : Config.KeySelect} {pressed : List (Fin 16)} {n : Nat} :
    pickKey p pressed n = none ↔ pressed = [] := by
  cases p with
  | lowest => exact List.head?_eq_none_iff
  | any =>
    cases pressed with
    | nil => simp [pickKey]
    | cons k ks => simpa [pickKey] using Nat.mod_lt n ks.length.succ_pos

/-- Under `KEY_SELECT = any` no pressed key is shut out: each is picked by some choice (D5). -/
theorem exists_pickKey_any {pressed : List (Fin 16)} {k : Fin 16} (h : k ∈ pressed) :
    ∃ n, pickKey .any pressed n = some k := by
  obtain ⟨n, hn, rfl⟩ := List.getElem_of_mem h
  exact ⟨n, by simp [pickKey, Nat.mod_eq_of_lt hn, hn]⟩

/-- FX0A finds no key exactly when all are released. -/
theorem State.selectKey_eq_none {s : State} : s.selectKey = none ↔ ∀ k : Fin 16, s.keyDown k = false := by
  simp [State.selectKey, pickKey_eq_none, State.pressedKeys]

/-- FX0A's key is pressed. -/
theorem State.keyDown_of_selectKey {s : State} {k : Fin 16} (h : s.selectKey = some k) : s.keyDown k = true :=
  State.mem_pressedKeys.mp (mem_of_pickKey h)

/-- Under `KEY_SELECT = lowest` FX0A's key is the least pressed one. -/
theorem State.selectKey_lowest {s : State} {k : Fin 16} (hp : s.keySelect = .lowest) :
    s.selectKey = some k ↔ s.keyDown k = true ∧ ∀ j < k, s.keyDown j = false := by
  simp only [State.selectKey, hp, pickKey, State.pressedKeys, List.head?_filter, List.find?_eq_some_iff_getElem,
    List.length_finRange, List.getElem_finRange]
  constructor
  · rintro ⟨hk, n, hn, hnk, hlt⟩
    refine ⟨hk, fun j hj => ?_⟩
    have hv : n = k.val := by simpa [Fin.ext_iff] using hnk
    simpa using hlt j.val (by rw [hv]; exact hj)
  · rintro ⟨hk, hlt⟩
    exact ⟨hk, k.val, k.isLt, by simp, fun j hj => by simpa using hlt ⟨j, by omega⟩ hj⟩

/-! ### Faults and the fetch -/

/-- A checked access either takes `OutOfBounds` at the lowest address that does not exist, or does its writes. -/
theorem checkBlock_eq (s : State) (base count : Nat) (done : State) :
    checkBlock s base count done =
      .next (if 0 < count ∧ 4096 < base + count then s.takeFault (.outOfBounds (max base 4096) s.pc) else done) := by
  simp only [checkBlock, blockFault?, Config.memSize]
  split <;> split <;> simp_all

/-- A word joined from two bytes. -/
@[simp] theorem toNat_joinBytes (hi lo : Byte) : (joinBytes hi lo).toNat = hi.toNat * 256 + lo.toNat := by
  simp only [joinBytes, BitVec.toNat_append, Nat.shiftLeft_eq]
  rw [Nat.mul_comm, ← Nat.two_pow_add_eq_or_of_lt lo.isLt hi.toNat]

/-- A word is its high and low byte joined. -/
@[simp] theorem joinBytes_split (w : Word) : joinBytes (highByte w) (lowByte w) = w := by
  apply BitVec.eq_of_toNat_eq
  rw [toNat_joinBytes]
  simp [highByte, lowByte, Nat.shiftRight_eq_div_pow]
  omega

/-! ### Timers -/

/-- One count of a timer, as a number: down by one, floor at 0. -/
@[simp] theorem toNat_countDown (t : Byte) : (countDown t).toNat = t.toNat - 1 := by
  simp only [countDown]
  split
  · next h => simp [h]
  · next h =>
    have h0 : t.toNat ≠ 0 := fun e => h (BitVec.eq_of_toNat_eq (by simpa using e))
    have := t.isLt
    rw [BitVec.toNat_sub]; simp; omega

/-! ### Pixels -/

/-- A pixel after one flip: the flipped pixel inverted, every other as before. -/
theorem pixelAt_flipPixel (fb : Frame) {x y : Nat} (hx : x < 64) (hy : y < 32) (a b : Nat) :
    pixelAt (flipPixel fb x y) a b = (pixelAt fb a b ^^ decide (a = x ∧ b = y)) := by
  simp only [flipPixel, hy, dif_pos, pixelAt]
  by_cases hb : b < 32
  · simp only [hb, dif_pos, Vector.getElem_set]
    by_cases hyb : y = b
    · subst hyb
      by_cases hax : a = x
      · subst hax; simp [hx]
      · simp [hax, Ne.symm hax]
    · simp [hyb, Ne.symm hyb]
  · simp [hb, show b ≠ y by omega]

/-- A pixel after a set sprite bit at `(x, y)`, and the collision so far (R172). -/
theorem pixelAt_touch (d : Drawing) (x y a b : Nat) :
    pixelAt (d.touch x y).fb a b = (pixelAt d.fb a b ^^ (decide (x < 64) && decide (y < 32) && decide (a = x ∧ b = y))) ∧
      (d.touch x y).collision = (d.collision || (decide (x < 64) && decide (y < 32) && pixelAt d.fb x y)) := by
  simp only [Drawing.touch]
  split
  · next h => simp [h.1, h.2, pixelAt_flipPixel d.fb h.1 h.2]
  · next h =>
    have : (decide (x < 64) && decide (y < 32)) = false := by simpa using h
    simp [this]

/-- Every pixel of the blank display is unlit. -/
@[simp] theorem pixelAt_blank (x y : Nat) : pixelAt Frame.blank x y = false := by
  simp [pixelAt, Frame.blank]

/-- Two displays with the same pixels are equal. -/
theorem Frame.ext_pixels {f g : Frame} (h : ∀ x < 64, ∀ y < 32, pixelAt f x y = pixelAt g x y) : f = g := by
  apply Vector.ext
  intro y hy
  apply BitVec.eq_of_getLsbD_eq
  intro x hx
  simpa [pixelAt, hy] using h x hx y hy

/-! ### Run control -/

/-- The image check accepts exactly the images of 1 to 3584 bytes. -/
theorem resetImage_eq_ok {r : Option (List Byte)} {rom : List Byte} :
    resetImage r = .ok rom ↔ r = some rom ∧ 1 ≤ rom.length ∧ rom.length ≤ 3584 := by
  cases r with
  | none => simp [resetImage]
  | some l =>
    cases l with
    | nil => simp only [resetImage]; constructor
             · simp
             · rintro ⟨h, h1, -⟩; simp only [Option.some.injEq] at h; subst h; simp at h1
    | cons b bs =>
      simp only [resetImage, Config.romMax]
      split
      · next h => simp only [reduceCtorEq, Option.some.injEq, false_iff]; rintro ⟨rfl, -, h2⟩; omega
      · next h =>
        simp only [Except.ok.injEq, Option.some.injEq]
        constructor
        · rintro rfl; exact ⟨rfl, by simp, by omega⟩
        · rintro ⟨h1, -⟩; exact h1

/-- A reset either loads the image or is refused. -/
theorem State.performReset_cases (s : State) :
    (∃ rom, resetImage s.rom = .ok rom ∧ s.performReset = s.resetWith rom) ∨
      (∃ why, resetImage s.rom = .error why ∧ s.performReset = s.refuseReset why) := by
  simp only [State.performReset]
  split
  · next rom h => exact .inl ⟨rom, h, rfl⟩
  · next why h => exact .inr ⟨why, h, rfl⟩

/-- With no command waiting, the boundary only takes back the outputs of the last step. -/
theorem State.hostPhase_of_no_inputs {s : State} (h : s.inputs = []) :
    s.hostPhase = { s with strobes := [], answers := [] } := by
  simp only [State.hostPhase, h, List.headD_nil, List.foldl_nil, List.tail_nil]

end Sys2Proof.Machine
end

