-- ==== Sys2Proof/Laws/PerInstr.lean ====
section
/-! SUPPORT. The family `Encoding`, one lemma per constructor of `Instr`: the instruction is well-formed, and its opcode word
is an instance of the pattern of its own row of the opcode map (30_encoding.md R82, R84). -/

namespace Sys2Proof.Laws.Encoding

/-- The instruction is well-formed and its word matches its row's pattern, which is one of the opcode map's. -/
def Statement (i : Instr) : Prop :=
  i.wellFormed = true ∧ i.pattern.matches (encode i) = true ∧ i.pattern ∈ opcodeMap

@[simp] theorem fits_ofReg (x : Reg) : (Operand.ofReg x).fits = true := by simp [Operand.fits, Operand.ofReg]

@[simp] theorem fits_bits {w : Nat} (b : BitVec w) : (Operand.mk b.toNat w).fits = true := by
  simpa [Operand.fits] using b.isLt

@[simp] theorem fits_count (n : Fin 16) : (Operand.mk n.val 4).fits = true := by simp [Operand.fits]

theorem op00E0 : Statement .op00E0 :=
  ⟨by simp [Instr.wellFormed, Instr.operands], by decide,
    by simp [opcodeMap, Instr.pattern]⟩

theorem op00EE : Statement .op00EE :=
  ⟨by simp [Instr.wellFormed, Instr.operands], by decide,
    by simp [opcodeMap, Instr.pattern]⟩

theorem op1NNN (nnn : BitVec 12) : Statement (.op1NNN nnn) :=
  ⟨by simp [Instr.wellFormed, Instr.operands], by
    simp only [Pattern.matches, Instr.pattern, encode, wordNNN_and_F000]; rfl,
    by simp [opcodeMap, Instr.pattern]⟩

theorem op2NNN (nnn : BitVec 12) : Statement (.op2NNN nnn) :=
  ⟨by simp [Instr.wellFormed, Instr.operands], by
    simp only [Pattern.matches, Instr.pattern, encode, wordNNN_and_F000]; rfl,
    by simp [opcodeMap, Instr.pattern]⟩

theorem op3XNN (x : Reg) (nn : Byte) : Statement (.op3XNN x nn) :=
  ⟨by simp [Instr.wellFormed, Instr.operands], by
    simp only [Pattern.matches, Instr.pattern, encode, wordXNN_and_F000]; rfl,
    by simp [opcodeMap, Instr.pattern]⟩

theorem op4XNN (x : Reg) (nn : Byte) : Statement (.op4XNN x nn) :=
  ⟨by simp [Instr.wellFormed, Instr.operands], by
    simp only [Pattern.matches, Instr.pattern, encode, wordXNN_and_F000]; rfl,
    by simp [opcodeMap, Instr.pattern]⟩

theorem op5XY0 (x y : Reg) : Statement (.op5XY0 x y) :=
  ⟨by simp [Instr.wellFormed, Instr.operands], by
    simp only [Pattern.matches, Instr.pattern, encode, wordXYN_and_F00F]; rfl,
    by simp [opcodeMap, Instr.pattern]⟩

theorem op6XNN (x : Reg) (nn : Byte) : Statement (.op6XNN x nn) :=
  ⟨by simp [Instr.wellFormed, Instr.operands], by
    simp only [Pattern.matches, Instr.pattern, encode, wordXNN_and_F000]; rfl,
    by simp [opcodeMap, Instr.pattern]⟩

theorem op7XNN (x : Reg) (nn : Byte) : Statement (.op7XNN x nn) :=
  ⟨by simp [Instr.wellFormed, Instr.operands], by
    simp only [Pattern.matches, Instr.pattern, encode, wordXNN_and_F000]; rfl,
    by simp [opcodeMap, Instr.pattern]⟩

theorem op8XY0 (x y : Reg) : Statement (.op8XY0 x y) :=
  ⟨by simp [Instr.wellFormed, Instr.operands], by
    simp only [Pattern.matches, Instr.pattern, encode, wordXYN_and_F00F]; rfl,
    by simp [opcodeMap, Instr.pattern]⟩

theorem op8XY1 (x y : Reg) : Statement (.op8XY1 x y) :=
  ⟨by simp [Instr.wellFormed, Instr.operands], by
    simp only [Pattern.matches, Instr.pattern, encode, wordXYN_and_F00F]; rfl,
    by simp [opcodeMap, Instr.pattern]⟩

theorem op8XY2 (x y : Reg) : Statement (.op8XY2 x y) :=
  ⟨by simp [Instr.wellFormed, Instr.operands], by
    simp only [Pattern.matches, Instr.pattern, encode, wordXYN_and_F00F]; rfl,
    by simp [opcodeMap, Instr.pattern]⟩

theorem op8XY3 (x y : Reg) : Statement (.op8XY3 x y) :=
  ⟨by simp [Instr.wellFormed, Instr.operands], by
    simp only [Pattern.matches, Instr.pattern, encode, wordXYN_and_F00F]; rfl,
    by simp [opcodeMap, Instr.pattern]⟩

theorem op8XY4 (x y : Reg) : Statement (.op8XY4 x y) :=
  ⟨by simp [Instr.wellFormed, Instr.operands], by
    simp only [Pattern.matches, Instr.pattern, encode, wordXYN_and_F00F]; rfl,
    by simp [opcodeMap, Instr.pattern]⟩

theorem op8XY5 (x y : Reg) : Statement (.op8XY5 x y) :=
  ⟨by simp [Instr.wellFormed, Instr.operands], by
    simp only [Pattern.matches, Instr.pattern, encode, wordXYN_and_F00F]; rfl,
    by simp [opcodeMap, Instr.pattern]⟩

theorem op8XY6 (x y : Reg) : Statement (.op8XY6 x y) :=
  ⟨by simp [Instr.wellFormed, Instr.operands], by
    simp only [Pattern.matches, Instr.pattern, encode, wordXYN_and_F00F]; rfl,
    by simp [opcodeMap, Instr.pattern]⟩

theorem op8XY7 (x y : Reg) : Statement (.op8XY7 x y) :=
  ⟨by simp [Instr.wellFormed, Instr.operands], by
    simp only [Pattern.matches, Instr.pattern, encode, wordXYN_and_F00F]; rfl,
    by simp [opcodeMap, Instr.pattern]⟩

theorem op8XYE (x y : Reg) : Statement (.op8XYE x y) :=
  ⟨by simp [Instr.wellFormed, Instr.operands], by
    simp only [Pattern.matches, Instr.pattern, encode, wordXYN_and_F00F]; rfl,
    by simp [opcodeMap, Instr.pattern]⟩

theorem op9XY0 (x y : Reg) : Statement (.op9XY0 x y) :=
  ⟨by simp [Instr.wellFormed, Instr.operands], by
    simp only [Pattern.matches, Instr.pattern, encode, wordXYN_and_F00F]; rfl,
    by simp [opcodeMap, Instr.pattern]⟩

theorem opANNN (nnn : BitVec 12) : Statement (.opANNN nnn) :=
  ⟨by simp [Instr.wellFormed, Instr.operands], by
    simp only [Pattern.matches, Instr.pattern, encode, wordNNN_and_F000]; rfl,
    by simp [opcodeMap, Instr.pattern]⟩

theorem opBNNN (nnn : BitVec 12) : Statement (.opBNNN nnn) :=
  ⟨by simp [Instr.wellFormed, Instr.operands], by
    simp only [Pattern.matches, Instr.pattern, encode, wordNNN_and_F000]; rfl,
    by simp [opcodeMap, Instr.pattern]⟩

theorem opCXNN (x : Reg) (nn : Byte) : Statement (.opCXNN x nn) :=
  ⟨by simp [Instr.wellFormed, Instr.operands], by
    simp only [Pattern.matches, Instr.pattern, encode, wordXNN_and_F000]; rfl,
    by simp [opcodeMap, Instr.pattern]⟩

theorem opDXYN (x y : Reg) (n : Fin 16) : Statement (.opDXYN x y n) :=
  ⟨by simp [Instr.wellFormed, Instr.operands], by
    simp only [Pattern.matches, Instr.pattern, encode, wordXYN_and_F000]; rfl,
    by simp [opcodeMap, Instr.pattern]⟩

theorem opEX9E (x : Reg) : Statement (.opEX9E x) :=
  ⟨by simp [Instr.wellFormed, Instr.operands], by
    simp only [Pattern.matches, Instr.pattern, encode, wordXNN_and_F0FF]; rfl,
    by simp [opcodeMap, Instr.pattern]⟩

theorem opEXA1 (x : Reg) : Statement (.opEXA1 x) :=
  ⟨by simp [Instr.wellFormed, Instr.operands], by
    simp only [Pattern.matches, Instr.pattern, encode, wordXNN_and_F0FF]; rfl,
    by simp [opcodeMap, Instr.pattern]⟩

theorem opFX07 (x : Reg) : Statement (.opFX07 x) :=
  ⟨by simp [Instr.wellFormed, Instr.operands], by
    simp only [Pattern.matches, Instr.pattern, encode, wordXNN_and_F0FF]; rfl,
    by simp [opcodeMap, Instr.pattern]⟩

theorem opFX0A (x : Reg) : Statement (.opFX0A x) :=
  ⟨by simp [Instr.wellFormed, Instr.operands], by
    simp only [Pattern.matches, Instr.pattern, encode, wordXNN_and_F0FF]; rfl,
    by simp [opcodeMap, Instr.pattern]⟩

theorem opFX15 (x : Reg) : Statement (.opFX15 x) :=
  ⟨by simp [Instr.wellFormed, Instr.operands], by
    simp only [Pattern.matches, Instr.pattern, encode, wordXNN_and_F0FF]; rfl,
    by simp [opcodeMap, Instr.pattern]⟩

theorem opFX18 (x : Reg) : Statement (.opFX18 x) :=
  ⟨by simp [Instr.wellFormed, Instr.operands], by
    simp only [Pattern.matches, Instr.pattern, encode, wordXNN_and_F0FF]; rfl,
    by simp [opcodeMap, Instr.pattern]⟩

theorem opFX1E (x : Reg) : Statement (.opFX1E x) :=
  ⟨by simp [Instr.wellFormed, Instr.operands], by
    simp only [Pattern.matches, Instr.pattern, encode, wordXNN_and_F0FF]; rfl,
    by simp [opcodeMap, Instr.pattern]⟩

theorem opFX29 (x : Reg) : Statement (.opFX29 x) :=
  ⟨by simp [Instr.wellFormed, Instr.operands], by
    simp only [Pattern.matches, Instr.pattern, encode, wordXNN_and_F0FF]; rfl,
    by simp [opcodeMap, Instr.pattern]⟩

theorem opFX33 (x : Reg) : Statement (.opFX33 x) :=
  ⟨by simp [Instr.wellFormed, Instr.operands], by
    simp only [Pattern.matches, Instr.pattern, encode, wordXNN_and_F0FF]; rfl,
    by simp [opcodeMap, Instr.pattern]⟩

theorem opFX55 (x : Reg) : Statement (.opFX55 x) :=
  ⟨by simp [Instr.wellFormed, Instr.operands], by
    simp only [Pattern.matches, Instr.pattern, encode, wordXNN_and_F0FF]; rfl,
    by simp [opcodeMap, Instr.pattern]⟩

theorem opFX65 (x : Reg) : Statement (.opFX65 x) :=
  ⟨by simp [Instr.wellFormed, Instr.operands], by
    simp only [Pattern.matches, Instr.pattern, encode, wordXNN_and_F0FF]; rfl,
    by simp [opcodeMap, Instr.pattern]⟩

end Sys2Proof.Laws.Encoding
end

