-- ==== Sys2Proof/Laws/Step.lean ====
section
/-! SUPPORT. What a cycle, a boundary and a step can do, said once: proofs about steps cite these in place of unfolding. -/

namespace Sys2Proof.Machine

/-! ### The conditions of the sequencer -/

/-- A cycle is enabled in an initialised, running machine that is neither paused nor waiting for a reset nor faulted
(R120). -/
theorem State.cycleEnabled_iff {s : State} :
    s.cycleEnabled = true ↔
      s.initialized = true ∧ s.running = true ∧ s.paused = false ∧ s.resetPending = false ∧ s.fault = none := by
  simp [State.cycleEnabled, and_assoc]

/-- A pending reset and a cycle exclude each other. -/
theorem State.resetDue_of_cycleEnabled {s : State} (h : s.cycleEnabled = true) : s.resetDue = false := by
  simp [State.resetDue, State.cycleEnabled_iff.mp h]

/-! ### The cycle -/

/-- What a cycle that answers a state did: it took the fault of the fetch or of decode, or executed the instruction at
`pc` and finished (R110). -/
theorem cycle_cases {s t : State} (h : cycle s = .next t) :
    (∃ f, s.fetch = .error f ∧ t = s.takeFault f) ∨
      (∃ op, s.fetch = .ok op ∧ decodeWord op = none ∧ t = s.takeFault (.unknownOpcode op s.pc)) ∨
        ∃ op i u, s.fetch = .ok op ∧ decodeWord op = some i ∧ exec i s = .next u ∧ t = u.finishCycle := by
  simp only [cycle] at h
  split at h
  · next f hf => cases h; exact .inl ⟨f, hf, rfl⟩
  · next op hop =>
    split at h
    · next hd => cases h; exact .inr (.inl ⟨op, hop, hd, rfl⟩)
    · next i hd =>
      simp only [executeStage] at h
      split at h <;> cases h
      next u hu => exact .inr (.inr ⟨op, i, u, hop, hd, hu, rfl⟩)

/-- A fault of the fetch is `OutOfBounds` with the address of the instruction (R52, R205). -/
theorem State.fetch_eq_error {s : State} {f : Fault} (h : s.fetch = .error f) :
    4095 ≤ s.pc.toNat ∧ f = .outOfBounds (max s.pc.toNat 4096) s.pc := by
  simp only [State.fetch] at h
  split at h <;> cases h
  next a ha =>
    obtain ⟨-, h2, rfl⟩ := blockFault?_eq_some.mp ha
    exact ⟨by omega, rfl⟩

/-- A fetch succeeds exactly with both bytes inside the memory (R52, R111). -/
theorem State.fetch_eq_ok {s : State} {op : Word} :
    s.fetch = .ok op ↔
      s.pc.toNat < 4095 ∧ op = joinBytes (s.mem.read s.pc.toNat) (s.mem.read (s.pc.toNat + 1)) := by
  simp only [State.fetch]
  split
  · next a ha =>
    obtain ⟨-, h2, -⟩ := blockFault?_eq_some.mp ha
    simp only [reduceCtorEq, false_iff]; omega
  · next hn =>
    have := blockFault?_eq_none.mp hn
    simp only [Except.ok.injEq]
    exact ⟨fun e => ⟨by omega, e.symm⟩, fun e => e.2.symm⟩

/-- After an instruction that took a fault the cycle ends there (R117). -/
theorem State.finishCycle_of_fault {s : State} {f : Fault} (h : s.fault = some f) : s.finishCycle = s := by
  simp [State.finishCycle, h]

/-- After an instruction without a fault the timers count and the strobes are given (R110). -/
theorem State.finishCycle_of_no_fault {s : State} (h : s.fault = none) : s.finishCycle = s.tickTimers.notify := by
  simp [State.finishCycle, h]

/-! ### The step -/

/-- With a cycle enabled after the host's commands, the step is that cycle. -/
theorem step_of_cycleEnabled {s : State} (h : s.hostPhase.cycleEnabled = true) : step s = cycle s.hostPhase := by
  simp [step, sequencer, State.resetDue_of_cycleEnabled h, h]

/-- With a pending reset due after the host's commands, the step is that reset (R228). -/
theorem step_of_resetDue {s : State} (h : s.hostPhase.resetDue = true) : step s = .next s.hostPhase.honourReset := by
  simp [step, sequencer, h]

/-- What a step did after the host's commands: the pending reset, a cycle, or nothing. -/
theorem step_cases {s t : State} (h : step s = .next t) :
    (s.hostPhase.resetDue = true ∧ t = s.hostPhase.honourReset) ∨
      (s.hostPhase.cycleEnabled = true ∧ cycle s.hostPhase = .next t) ∨
        (s.hostPhase.resetDue = false ∧ s.hostPhase.cycleEnabled = false ∧ t = s.hostPhase) := by
  simp only [step, sequencer] at h
  split at h
  · next hr => cases h; exact .inl ⟨hr, rfl⟩
  · next hr =>
    split at h
    · next hc => exact .inr (.inl ⟨hc, h⟩)
    · next hc => cases h; exact .inr (.inr ⟨by simpa using hr, by simpa using hc, rfl⟩)

/-- The induction over the commands of a boundary: what holds when the outputs have been taken back, and is kept by every
command, holds after the boundary. -/
theorem State.hostPhase_induction {P : State → Prop} {s : State}
    (start : P { s with inputs := s.inputs.tail, strobes := [], answers := [] })
    (command : ∀ (u : State) (c : HostCmd), P u → P (u.hostDo c)) : P s.hostPhase := by
  have fold : ∀ (cs : List HostCmd) (u : State), P u → P (cs.foldl State.hostDo u) := by
    intro cs
    induction cs with
    | nil => exact fun u h => h
    | cons c cs ih => exact fun u h => ih _ (command u c h)
  exact fold _ _ start

/-- A boundary gives no strobe: every command leaves the strobes as they are, and they were taken back. -/
theorem State.strobes_hostPhase (s : State) : s.hostPhase.strobes = [] := by
  have reset (u : State) : u.performReset.strobes = u.strobes := by
    rcases u.performReset_cases with ⟨_, _, h⟩ | ⟨_, _, h⟩ <;> rw [h] <;> rfl
  refine State.hostPhase_induction (P := fun u => u.strobes = []) rfl fun u c hu => ?_
  cases c <;> simp only [State.hostDo] <;> (repeat' split) <;>
    first
    | exact hu
    | exact (reset _).trans hu

/-! ### Reset -/

/-- The image check refuses exactly what the spec's table of refusals names, with that refusal (R242). -/
theorem resetImage_eq_error {r : Option (List Byte)} {why : ResetRefusal} :
    resetImage r = .error why ↔ refusalOf r = some why := by
  cases r with
  | none => simp [resetImage, refusalOf]
  | some rom =>
    cases rom with
    | nil => simp [resetImage, refusalOf]
    | cons b bs =>
      simp only [resetImage, refusalOf, Config.romMax, List.length_cons, Nat.add_eq_zero_iff, one_ne_zero, and_false,
        if_false]
      split <;> simp

/-- A refused reset (R242). -/
theorem State.performReset_of_refused {s : State} {why : ResetRefusal} (h : refusalOf s.rom = some why) :
    s.performReset = s.refuseReset why := by
  simp only [State.performReset, resetImage_eq_error.mpr h]

/-- A reset with a good image (R240). -/
theorem State.performReset_of_image {s : State} {rom : List Byte} (h : s.rom = some rom) (h1 : 1 ≤ rom.length)
    (h2 : rom.length ≤ 3584) : s.performReset = s.resetWith rom := by
  simp only [State.performReset, resetImage_eq_ok.mpr ⟨h, h1, h2⟩]

/-- The deferred reset of a running machine with a good image is that reset; the machine runs on (R228, R240). -/
theorem State.honourReset_of_image {s : State} {rom : List Byte} (hr : s.running = true) (h : s.rom = some rom)
    (h1 : 1 ≤ rom.length) (h2 : rom.length ≤ 3584) : s.honourReset = s.resetWith rom := by
  simp only [State.honourReset, State.performLoopReset]
  rw [State.performReset_of_image (by exact h) h1 h2]
  simp [State.resetWith, hr]

/-- The deferred reset with an image that is refused: the refused reset, with running and reset_pending cleared (R228,
R242). -/
theorem State.honourReset_of_refused {s : State} {why : ResetRefusal} (h : refusalOf s.rom = some why) :
    s.honourReset = { s.refuseReset why with running := false, resetPending := false } := by
  simp only [State.honourReset, State.performLoopReset]
  rw [State.performReset_of_refused (by exact h)]
  simp [State.refuseReset, State.forgetContents]

/-- A reset, refused or not, keeps the argument FONT: what it writes is that table (R58). -/
@[simp] theorem State.performReset_font (s : State) : s.performReset.mem.font = s.mem.font := by
  rcases s.performReset_cases with ⟨_, _, h⟩ | ⟨_, _, h⟩ <;> rw [h] <;>
    simp [State.resetWith, State.refuseReset, State.forgetContents, Memory.afterReset]

end Sys2Proof.Machine
end

