-- ==== Sys2Proof/Tests/Slice0.lean ====
section
/-! SUPPORT. The model's own tests. Expected results are the vectors of 95_test_vectors.md (named T-...), or worked out by
hand from the rule a comment names. Witnesses: for every statement with hypotheses, values that meet them. -/

namespace Sys2Proof.Tests
open Sys2Proof.Machine

/-! ### Well-formedness: one ill-formed operand for each field width, beside the largest that fits -/

theorem test_register_16_does_not_fit : (Operand.mk 16 4).fits = false ∧ (Operand.mk 15 4).fits = true := by decide
theorem test_immediate_256_does_not_fit : (Operand.mk 256 8).fits = false ∧ (Operand.mk 255 8).fits = true := by decide
theorem test_address_4096_does_not_fit : (Operand.mk 4096 12).fits = false ∧ (Operand.mk 4095 12).fits = true := by decide
theorem test_largest_operands_are_well_formed :
    (Instr.opDXYN 15 15 15).wellFormed = true ∧ (Instr.opCXNN 15 0xFF#8).wellFormed = true ∧
      (Instr.opBNNN 0xFFF#12).wellFormed = true := by decide

/-! ### Decode: a word of every row, its digits written from the patterns of R84 and the fields of R81 -/

theorem test_decode_control :
    decode [0x00#8, 0xE0#8] = .ok (.op00E0, []) ∧ decode [0x00#8, 0xEE#8] = .ok (.op00EE, []) ∧
      decode [0x1A#8, 0xBC#8] = .ok (.op1NNN 0xABC#12, []) ∧ decode [0x2D#8, 0xEF#8] = .ok (.op2NNN 0xDEF#12, []) ∧
      decode [0x3A#8, 0x5C#8] = .ok (.op3XNN 0xA 0x5C#8, []) ∧ decode [0x4B#8, 0xC6#8] = .ok (.op4XNN 0xB 0xC6#8, []) ∧
      decode [0x51#8, 0x20#8] = .ok (.op5XY0 1 2, []) ∧ decode [0x9E#8, 0x30#8] = .ok (.op9XY0 0xE 3, []) ∧
      decode [0xB3#8, 0x21#8] = .ok (.opBNNN 0x321#12, []) := by decide

theorem test_decode_logic :
    decode [0x6A#8, 0x7F#8] = .ok (.op6XNN 0xA 0x7F#8, []) ∧ decode [0x7F#8, 0x01#8] = .ok (.op7XNN 0xF 0x01#8, []) ∧
      decode [0x81#8, 0x20#8] = .ok (.op8XY0 1 2, []) ∧ decode [0x83#8, 0x41#8] = .ok (.op8XY1 3 4, []) ∧
      decode [0x85#8, 0x62#8] = .ok (.op8XY2 5 6, []) ∧ decode [0x87#8, 0x83#8] = .ok (.op8XY3 7 8, []) := by decide

theorem test_decode_arithmetic :
    decode [0x89#8, 0xA4#8] = .ok (.op8XY4 9 0xA, []) ∧ decode [0x8B#8, 0xC5#8] = .ok (.op8XY5 0xB 0xC, []) ∧
      decode [0x8D#8, 0xE6#8] = .ok (.op8XY6 0xD 0xE, []) ∧ decode [0x8F#8, 0x07#8] = .ok (.op8XY7 0xF 0, []) ∧
      decode [0x82#8, 0x1E#8] = .ok (.op8XYE 2 1, []) ∧ decode [0xC1#8, 0x0F#8] = .ok (.opCXNN 1 0x0F#8, []) := by decide

theorem test_decode_index_memory :
    decode [0xA1#8, 0x23#8] = .ok (.opANNN 0x123#12, []) ∧ decode [0xF2#8, 0x1E#8] = .ok (.opFX1E 2, []) ∧
      decode [0xF4#8, 0x29#8] = .ok (.opFX29 4, []) ∧ decode [0xF1#8, 0x33#8] = .ok (.opFX33 1, []) ∧
      decode [0xF2#8, 0x55#8] = .ok (.opFX55 2, []) ∧ decode [0xFF#8, 0x65#8] = .ok (.opFX65 0xF, []) := by decide

theorem test_decode_display_keys_timers :
    decode [0xD1#8, 0x2F#8] = .ok (.opDXYN 1 2 0xF, []) ∧ decode [0xE3#8, 0x9E#8] = .ok (.opEX9E 3, []) ∧
      decode [0xE1#8, 0xA1#8] = .ok (.opEXA1 1, []) ∧ decode [0xF1#8, 0x07#8] = .ok (.opFX07 1, []) ∧
      decode [0xF3#8, 0x0A#8] = .ok (.opFX0A 3, []) ∧ decode [0xFA#8, 0x15#8] = .ok (.opFX15 0xA, []) ∧
      decode [0xF2#8, 0x18#8] = .ok (.opFX18 2, []) := by decide

/-- T-E1, T-E4 to T-E8, T-E10: refused by name. -/
theorem test_decode_refuses :
    decode [0x00#8, 0x00#8] = .error (.unknownOpcode 0x0000#16) ∧ decodeWord 0x00E1#16 = none ∧
      decodeWord 0x00FE#16 = none ∧ decodeWord 0x0123#16 = none ∧ decodeWord 0x5121#16 = none ∧
      decodeWord 0x512F#16 = none ∧ decodeWord 0x8128#16 = none ∧ decodeWord 0x812D#16 = none ∧
      decodeWord 0x812F#16 = none ∧ decodeWord 0x9121#16 = none ∧ decodeWord 0xE19F#16 = none ∧
      decodeWord 0xE100#16 = none ∧ decodeWord 0xF100#16 = none ∧ decodeWord 0xF10B#16 = none ∧
      decodeWord 0xF185#16 = none ∧ decodeWord 0xFFFF#16 = none ∧ decode [0x12#8] = .error (.truncated [0x12#8]) := by decide

theorem test_table_word : decodeTableWord 16 0x8AB4 = some (.op8XY4 0xA 0xB) ∧ decodeTableWord 16 0x00E1 = none := by decide

/-! ### One step of each instruction -/

/-- The reset state after some changes, with a word where the next step fetches. -/
def start (w : Nat) (changes : List (State → State)) : State := (changes.foldl (fun s f => f s) State.reset).withFetchWord 16 w

/-- A change of one register. -/
def v (x : Reg) (w : Byte) (s : State) : State := s.writeV x w

/-- A change of `I`. -/
def i (w : Word) (s : State) : State := { s with i := w }

/-- A change of memory. -/
def bytes (a : Nat) (ws : List Byte) (s : State) : State := { s with mem := s.mem.writeBytes a ws }

/-- A lit pixel. -/
def lit (x y : Nat) (s : State) : State := { s with fb := flipPixel s.fb x y }

/-- A pressed key. -/
def key (k : Fin 16) (s : State) : State := s.hostDo (.pressKey k)

/-- `n` entries on the stack, the top one being `w`. -/
def stack (n : Fin 17) (k : Fin 16) (w : Word) (s : State) : State := { s with sp := n, stk := s.stk.set k.val w }

/-- The argument `VF_PRIORITY` at its other value. -/
def resultPriority (s : State) : State := { s with vfPriority := .result }

/-- The argument `KEY_SELECT` at its other value. -/
def anyKey (s : State) : State := { s with keySelect := .any }

/-- The timers. -/
def timers (d t : Byte) (s : State) : State := { s with dt := d, st := t }

/-- The step ends in a state in which `p` holds. -/
def ends (s : State) (p : State → Bool) : Bool :=
  match step s with
  | .next t => p t
  | _ => false

/-- The step takes the fault `f` and changes nothing else. -/
def faults (s : State) (f : Fault) : Bool := ends s fun t => t == { s with fault := some f, running := false }

/-- T-C1. -/
theorem test_return :
    ends (start 0x00EE [stack 1 0 0x0ABC#16]) (fun t => t.pc == 0x0ABE#16 && t.sp == 0 && t.stk[0] == 0x0ABC#16) = true := by
  decide
/-- T-C2. -/
theorem test_return_underflow : faults (start 0x00EE []) (.invalidStackOperation .underflow 0x0200#16) = true := by decide
/-- T-C6. -/
theorem test_jump : ends (start 0x1FFF []) (fun t => t.pc == 0x0FFF#16) = true := by decide
/-- T-C8. -/
theorem test_call :
    ends (start 0x2ABC [stack 15 0 0#16]) (fun t => t.pc == 0x0ABC#16 && t.sp == 16 && t.stk[15] == 0x0200#16) = true := by
  decide
/-- T-C9. -/
theorem test_call_overflow :
    faults (start 0x2ABC [stack 16 0 0#16]) (.invalidStackOperation .overflow 0x0200#16) = true := by decide
/-- T-C10. -/
theorem test_skip_equal_immediate : ends (start 0x3342 [v 3 0x42#8]) (fun t => t.pc == 0x0204#16) = true := by decide
/-- T-C11. -/
theorem test_no_skip_equal_immediate : ends (start 0x3343 [v 3 0x42#8]) (fun t => t.pc == 0x0202#16) = true := by decide
/-- T-C13. -/
theorem test_skip_different_immediate : ends (start 0x4343 [v 3 0x42#8]) (fun t => t.pc == 0x0204#16) = true := by decide
/-- T-C14. -/
theorem test_skip_equal_registers : ends (start 0x5120 [v 1 7#8, v 2 7#8]) (fun t => t.pc == 0x0204#16) = true := by decide
/-- T-C17. -/
theorem test_skip_different_registers :
    ends (start 0x9120 [v 1 7#8, v 2 8#8]) (fun t => t.pc == 0x0204#16) = true := by decide
/-- T-C21. -/
theorem test_jump_with_offset : ends (start 0xBFFF [v 0 0xFF#8]) (fun t => t.pc == 0x10FE#16) = true := by decide

/-- T-A1. -/
theorem test_load_immediate : ends (start 0x6A7F []) (fun t => t.readV 10 == 0x7F#8 && t.pc == 0x0202#16) = true := by decide
/-- T-S2. -/
theorem test_add_immediate_wraps :
    ends (start 0x7002 [v 0 0xFF#8, v 15 7#8]) (fun t => t.readV 0 == 0x01#8 && t.readV 15 == 7#8) = true := by decide
/-- T-A6. -/
theorem test_move :
    ends (start 0x8120 [v 1 0x01#8, v 2 0x5A#8, v 15 7#8]) (fun t => t.readV 1 == 0x5A#8 && t.readV 15 == 7#8) = true := by
  decide
/-- T-A7. -/
theorem test_or :
    ends (start 0x8121 [v 1 0xF0#8, v 2 0x0F#8, v 15 7#8]) (fun t => t.readV 1 == 0xFF#8 && t.readV 15 == 7#8) = true := by
  decide
/-- T-A8. -/
theorem test_and :
    ends (start 0x8122 [v 1 0xF0#8, v 2 0x3C#8, v 15 7#8]) (fun t => t.readV 1 == 0x30#8 && t.readV 15 == 7#8) = true := by
  decide
/-- T-A9. -/
theorem test_xor :
    ends (start 0x8123 [v 1 0xF0#8, v 2 0x3C#8, v 15 7#8]) (fun t => t.readV 1 == 0xCC#8 && t.readV 15 == 7#8) = true := by
  decide
/-- T-S3a. -/
theorem test_add_carry :
    ends (start 0x8124 [v 1 0xFF#8, v 2 0x01#8]) (fun t => t.readV 1 == 0x00#8 && t.readV 15 == 1#8) = true := by decide
/-- T-A16: with X = F the flag, here 0, is what VF holds. -/
theorem test_add_into_vf : ends (start 0x8F14 [v 15 0x10#8, v 1 0x01#8]) (fun t => t.readV 15 == 0x00#8) = true := by decide
/-- T-A16 and T-A24 with `VF_PRIORITY` = result: VF holds the sum, the difference. -/
theorem test_result_priority :
    ends (start 0x8F14 [v 15 0x10#8, v 1 0x01#8, resultPriority]) (fun t => t.readV 15 == 0x11#8) = true ∧
      ends (start 0x8F15 [v 15 0x01#8, v 1 0x02#8, resultPriority]) (fun t => t.readV 15 == 0xFF#8) = true := by decide
/-- T-S4a. -/
theorem test_subtract_borrow :
    ends (start 0x8125 [v 1 0x01#8, v 2 0x02#8, v 15 1#8]) (fun t => t.readV 1 == 0xFF#8 && t.readV 15 == 0#8) = true := by
  decide
/-- T-A20. -/
theorem test_subtract_equal :
    ends (start 0x8125 [v 1 0x07#8, v 2 0x07#8]) (fun t => t.readV 1 == 0x00#8 && t.readV 15 == 1#8) = true := by decide
/-- T-A26. -/
theorem test_shift_right :
    ends (start 0x8126 [v 1 0x05#8, v 2 0xFF#8]) (fun t => t.readV 1 == 0x02#8 && t.readV 15 == 1#8) = true := by decide
/-- T-A29. -/
theorem test_shift_right_vf : ends (start 0x8F06 [v 15 0x02#8]) (fun t => t.readV 15 == 0#8) = true := by decide
/-- T-A31. -/
theorem test_reverse_subtract :
    ends (start 0x8127 [v 1 0x02#8, v 2 0x05#8]) (fun t => t.readV 1 == 0x03#8 && t.readV 15 == 1#8) = true := by decide
/-- T-A32. -/
theorem test_reverse_subtract_borrow :
    ends (start 0x8127 [v 1 0x05#8, v 2 0x02#8, v 15 1#8]) (fun t => t.readV 1 == 0xFD#8 && t.readV 15 == 0#8) = true := by
  decide
/-- T-A35. -/
theorem test_shift_left :
    ends (start 0x812E [v 1 0x81#8, v 2 0xFF#8]) (fun t => t.readV 1 == 0x02#8 && t.readV 15 == 1#8) = true := by decide
/-- T-A41: NN = 0 gives 0 whatever the random byte is; and the draw is counted. -/
theorem test_random_masked : ends (start 0xC100 [v 1 0x55#8]) (fun t => t.freeIdx == 1 && t.pc == 0x0202#16) = true := by decide

/-- T-I1. -/
theorem test_load_index : ends (start 0xA123 []) (fun t => t.i == 0x0123#16 && t.pc == 0x0202#16) = true := by decide
/-- T-I5. -/
theorem test_add_index_wraps :
    ends (start 0xF11E [i 0xFFFF#16, v 1 2#8]) (fun t => t.i == 0x0001#16 && t.readV 15 == 1#8) = true := by decide
/-- T-I3. -/
theorem test_add_index_in_range :
    ends (start 0xF11E [i 0x0FFE#16, v 1 1#8, v 15 1#8]) (fun t => t.i == 0x0FFF#16 && t.readV 15 == 0#8) = true := by decide
/-- T-I10. -/
theorem test_glyph_not_masked : ends (start 0xF129 [v 1 0xFF#8]) (fun t => t.i == 0x04FB#16) = true := by decide
/-- T-I15. -/
theorem test_digits :
    ends (start 0xF133 [v 1 100#8, i 0x0FFD#16])
      (fun t => t.mem.readBytes 0xFFD 3 == [1#8, 0#8, 0#8] && t.i == 0x0FFD#16) = true := by decide
/-- T-I16. -/
theorem test_digits_fault : faults (start 0xF133 [v 1 100#8, i 0x0FFE#16]) (.outOfBounds 0x1000 0x0200#16) = true := by decide
/-- T-I18. -/
theorem test_store_registers :
    ends (start 0xF255 [v 0 1#8, v 1 2#8, v 2 3#8, v 3 4#8, i 0x0300#16])
      (fun t => t.mem.readBytes 0x300 4 == [1#8, 2#8, 3#8, 0#8] && t.i == 0x0303#16) = true := by decide
/-- T-I23. -/
theorem test_store_registers_fault :
    faults (start 0xF055 [v 0 0x11#8, i 0xFFFF#16]) (.outOfBounds 0xFFFF 0x0200#16) = true := by decide
/-- T-I29. -/
theorem test_load_registers :
    ends (start 0xF165 [i 0x0200#16])
      (fun t => t.readV 0 == 0xF1#8 && t.readV 1 == 0x65#8 && t.readV 2 == 0#8 && t.i == 0x0202#16) = true := by decide
/-- From R166: X = F at I = 0x0FF1 needs the byte at 0x1000. -/
theorem test_load_registers_fault :
    faults (start 0xFF65 [i 0x0FF1#16]) (.outOfBounds 0x1000 0x0200#16) = true := by decide

/-- T-D1. -/
theorem test_clear :
    ends (start 0x00E0 [lit 0 0, lit 63 31, v 15 7#8])
      (fun t => t.fb == Frame.blank && t.readV 15 == 7#8 && t.strobes == [Strobe.displayChanged, Strobe.cycleDone]) = true := by
  decide
/-- T-D12. -/
theorem test_draw_collides :
    ends (start 0xD121 [i 0x0300#16, bytes 0x300 [0xF0#8], lit 1 0, lit 4 0])
      (fun t => pixelAt t.fb 0 0 && !pixelAt t.fb 1 0 && pixelAt t.fb 3 0 && pixelAt t.fb 4 0 && t.readV 15 == 1#8) = true := by
  decide
/-- T-D21. -/
theorem test_draw_checks_all_rows :
    faults (start 0xD12F [v 2 40#8, i 0x0FF8#16]) (.outOfBounds 0x1000 0x0200#16) = true := by decide

/-- T-K2: the key is named by the register's value, not by the field. -/
theorem test_skip_key_down : ends (start 0xE39E [v 3 7#8, key 3]) (fun t => t.pc == 0x0202#16) = true := by decide
/-- T-K5. -/
theorem test_skip_key_down_fault :
    faults (start 0xE39E [v 3 16#8, key 0]) (.invalidKeyIndex 0x10#8 0x0200#16) = true := by decide
/-- T-K4. -/
theorem test_skip_key_up : ends (start 0xE3A1 [v 3 7#8]) (fun t => t.pc == 0x0204#16) = true := by decide
/-- T-K6. -/
theorem test_skip_key_up_fault : faults (start 0xE3A1 [v 3 0xFF#8]) (.invalidKeyIndex 0xFF#8 0x0200#16) = true := by decide
/-- T-K8. -/
theorem test_wait_blocks :
    ends (start 0xF30A [v 3 0x99#8, timers 2#8 1#8])
      (fun t => t.pc == 0x0200#16 && t.readV 3 == 0x99#8 && t.dt == 1#8 && t.st == 0#8 && t.strobes == [Strobe.cycleDone]) = true := by
  decide
/-- T-K9. -/
theorem test_wait_stores_lowest :
    ends (start 0xF30A [v 3 0x99#8, key 7, key 11]) (fun t => t.pc == 0x0202#16 && t.readV 3 == 7#8) = true := by decide
/-- T-K9 with `KEY_SELECT` = any: V[3] is 7 or 11, each of them possible. -/
theorem test_any_pressed_key :
    pickKey .any (key 11 (key 7 State.reset)).pressedKeys 0 = some 7 ∧
      pickKey .any (key 11 (key 7 State.reset)).pressedKeys 1 = some 11 := by decide
theorem test_wait_stores_any :
    ∃ t, exec (.opFX0A 3) (anyKey (key 11 (key 7 State.reset))) = .next t ∧ (t.readV 3 = 7#8 ∨ t.readV 3 = 11#8) := by
  have h : (anyKey (key 11 (key 7 State.reset))).selectKey =
      pickKey .any [7, 11] (Config.keyChoice 0) := rfl
  rcases Nat.mod_two_eq_zero_or_one (Config.keyChoice 0) with e | e
  · exact ⟨_, by simp only [exec, execFX0A, h, pickKey, List.length_cons, List.length_nil, e]; rfl, .inl rfl⟩
  · exact ⟨_, by simp only [exec, execFX0A, h, pickKey, List.length_cons, List.length_nil, e]; rfl, .inr rfl⟩
/-- T-K12. -/
theorem test_read_delay : ends (start 0xF507 [timers 4#8 0#8]) (fun t => t.readV 5 == 4#8 && t.dt == 3#8) = true := by decide
/-- T-K14. -/
theorem test_set_delay : ends (start 0xFA15 [v 10 5#8]) (fun t => t.dt == 4#8) = true := by decide
/-- T-K18. -/
theorem test_set_sound : ends (start 0xF218 [v 2 3#8]) (fun t => t.st == 2#8 && t.beep) = true := by decide
/-- T-K21. -/
theorem test_unknown_opcode :
    faults (start 0x0000 [timers 5#8 5#8]) (.unknownOpcode 0x0000#16 0x0200#16) = true := by decide
/-- T-C24. -/
theorem test_fetch_fault :
    faults { start 0x00E0 [] with pc := 0x1002#16 } (.outOfBounds 0x1002 0x1002#16) = true := by decide

/-! ### The host -/

/-- The machine at power-on, with the default arguments. -/
def off : State := State.powerOn Params.font .flag .lowest

/-- T-R1, T-R2: refused. -/
theorem test_init_refused :
    (off.hostDo .init).answers = [.resetRefused .noRomLoaded] ∧
      ((off.hostDo (.loadRom [])).hostDo .init).answers = [.resetRefused .invalidState] := ⟨rfl, rfl⟩
/-- An image of `n` bytes. -/
def image (n : Nat) : List Byte := List.replicate n 0#8

@[simp] theorem length_image (n : Nat) : (image n).length = n := List.length_replicate

/-- T-R3: refused, with the length. -/
theorem test_init_too_long :
    resetImage (some (0#8 :: image 3584)) = .error (.capacityExceeded 3585) := by
  simp [resetImage, Config.romMax]
/-- T-R5. -/
theorem test_init :
    (((off.hostDo (.loadRom [0x12#8, 0x00#8])).hostDo .init).mem.readBytes 0x1FF 4 = [0#8, 0x12#8, 0#8, 0#8]) ∧
      ((off.hostDo (.loadRom [0x12#8, 0x00#8])).hostDo .init).mem.read 0x4F = 0x80#8 := by decide
/-- R58: reset writes the argument FONT, whatever it is, and again after a store into its area. -/
theorem test_font_is_an_argument :
    (((((State.powerOn (Vector.replicate 80 0x55#8) .result .any).hostDo (.loadRom [0x12#8])).hostDo .init).mem.read 0x4F) = 0x55#8) ∧
      (((bytes 0 [7#8] ((off.hostDo (.loadRom [0x12#8])).hostDo .init)).hostDo .reset).mem.read 0) = 0xF0#8 := by decide
/-- T-R6, R200: a faulted machine does not run again, and its code is that of the fault. -/
theorem test_run_after_fault :
    ends { start 0x00EE [] with inputs := [[], [.run]] }
      (fun t => faultCode t.fault == 6 && t.runState == .faulted && ends t (fun u => u.pc == 0x0200#16 && !u.running && u.inputs == [])) = true := by
  decide
/-- R254: 0 Hz is refused, 500 Hz is a delay of 2 milliseconds. -/
theorem test_cycle_speed :
    (State.reset.hostDo (.setCycleSpeedHz 0)).answers = [.zeroHzRefused] ∧
      (State.reset.hostDo (.setCycleSpeedHz 500)).cycleDelayMs = 2 := by decide

/-! ### Witnesses: values that meet the hypotheses of each statement, clause by clause, at the bounds of their ranges -/

/-- A step that answers a next state. -/
def nextOf (s : State) : State :=
  match step s with
  | .next t => t
  | _ => s

theorem witness_DecodeOfEncodeIsTheInstruction : (Instr.opFX65 15).wellFormed = true := by decide
theorem witness_EncodeOfDecodeIsTheWord : decodeWord 0x8AB6#16 = some (.op8XY6 0xA 0xB) := by decide
theorem witness_DecodeSelectsTheMatchingRow :
    decodeWord 0xF00A#16 = some (.opFX0A 0) ∧
      0x512F#16 &&& (Instr.op5XY0 0 0).pattern.mask ≠ (Instr.op5XY0 0 0).pattern.value ∧
      0x5120#16 &&& (Instr.op5XY0 0 0).pattern.mask = (Instr.op5XY0 0 0).pattern.value := by decide
theorem witness_PatternsArePairwiseDisjoint :
    (Instr.op8XY6 0 0).pattern ∈ opcodeMap ∧ (Instr.op8XY6 0 0).pattern.matches 0x8AB6#16 = true := by decide
theorem witness_StepRunsTheDecodedInstruction :
    (Instr.opFX55 15).wellFormed = true ∧ (start 0xFF55 []).hostPhase.cycleEnabled = true ∧
      (start 0xFF55 []).hostPhase.pc.toNat + 1 < 4096 ∧ (start 0xFF55 []).inputs = [] ∧
      decode [(start 0xFF55 []).hostPhase.mem.read (start 0xFF55 []).hostPhase.pc.toNat,
        (start 0xFF55 []).hostPhase.mem.read ((start 0xFF55 []).hostPhase.pc.toNat + 1)] = .ok (.opFX55 15, []) := by decide
/-- At the last address an instruction fits at. -/
theorem witness_StepRunsTheDecodedInstruction_last :
    (({ State.reset with pc := 0x0FFE#16 } : State).withFetchWord 16 0x00EE).hostPhase.fetch = .ok 0x00EE#16 ∧
      (({ State.reset with pc := 0x0FFE#16 } : State).withFetchWord 16 0x00EE).hostPhase.cycleEnabled = true := by decide
theorem witness_FetchReadsTwoBytesOrFaults :
    4096 ≤ ({ State.reset with pc := 0x1000#16 } : State).pc.toNat ∧
      ({ State.reset with pc := 0x0FFF#16 } : State).pc.toNat = 4095 ∧
      ({ State.reset with pc := 0x0FFE#16 } : State).pc.toNat < 4095 := by decide
theorem witness_FetchAndDecodeFaultsAreTaken :
    ({ start 0x00E0 [] with pc := 0x0FFF#16 } : State).hostPhase.cycleEnabled = true ∧
      4095 ≤ ({ start 0x00E0 [] with pc := 0x0FFF#16 } : State).hostPhase.pc.toNat ∧
      (start 0x5121 []).hostPhase.cycleEnabled = true ∧ (start 0x5121 []).hostPhase.pc.toNat < 4095 ∧
      0x5121#16 = joinBytes ((start 0x5121 []).hostPhase.mem.read (start 0x5121 []).hostPhase.pc.toNat)
        ((start 0x5121 []).hostPhase.mem.read ((start 0x5121 []).hostPhase.pc.toNat + 1)) ∧
      decodeWord 0x5121#16 = none := by decide
/-- Every kind of fault, and the largest operands that raise none. -/
theorem witness_InstructionsExecuteOrFaultByTheTables :
    faultOf .op00EE State.reset = some (.invalidStackOperation .underflow 0x0200#16) ∧
      faultOf (.op2NNN 0#12) (stack 16 0 0#16 State.reset) = some (.invalidStackOperation .overflow 0x0200#16) ∧
      faultOf (.opEX9E 3) (v 3 16#8 State.reset) = some (.invalidKeyIndex 16#8 0x0200#16) ∧
      faultOf (.opDXYN 0 0 1) (i 0x1000#16 State.reset) = some (.outOfBounds 4096 0x0200#16) ∧
      faultOf (.op2NNN 0#12) (stack 15 0 0#16 State.reset) = none ∧ faultOf (.opEXA1 3) (v 3 15#8 State.reset) = none ∧
      faultOf (.opDXYN 0 0 0) (i 0xFFFF#16 State.reset) = none ∧ faultOf (.opFX33 0) (i 0x0FFD#16 State.reset) = none := by
  decide
theorem witness_FaultingCyclesArePrecise :
    (start 0x00EE []).hostPhase.cycleEnabled = true ∧ (∃ t, step (start 0x00EE []) = .next t ∧ t.fault ≠ none) :=
  ⟨by decide, _, rfl, by decide⟩
theorem witness_FaultLatchIsClearedOnlyByReset :
    (nextOf (start 0x00EE [])).fault = some (.invalidStackOperation .underflow 0x0200#16) ∧
      (nextOf (start 0x00EE [])).running = false ∧ (nextOf (start 0x00EE [])).inputs = [] := by decide
theorem witness_InstructionsLeaveTheHostsStateAlone :
    (∃ t, exec (.opFX0A 3) State.reset = .next t) ∧ faultOf (.opFX0A 3) State.reset = none := ⟨⟨_, rfl⟩, by decide⟩
/-- A register below a range, one beside a destination, VF under a logic instruction. -/
theorem witness_OnlyDestinationRegistersChange :
    (∃ t, exec (.opFX65 3) State.reset = .next t) ∧ writesReg (.opFX65 3) State.reset 4 = false ∧
      writesReg (.op8XY4 1 2) State.reset 2 = false ∧ writesReg (.op8XY1 1 2) State.reset 15 = false ∧
      writesReg (.opFX0A 3) State.reset 3 = false := ⟨⟨_, rfl⟩, by decide⟩
theorem witness_OnlyNamedInstructionsWriteEachResource :
    (∃ t, exec (.opFX33 1) State.reset = .next t) ∧ writesIndex (.opFX33 1) = false ∧ State.reset.mem.wf = true ∧
      ¬(State.reset.i.toNat ≤ 3 ∧ 3 < State.reset.i.toNat + storedBytes (.opFX33 1)) ∧
      writesDisplay (.opFX33 1) = false ∧ movesStack (.opFX33 1) = false ∧ State.reset.keySelect = .lowest :=
  ⟨⟨_, rfl⟩, by decide⟩
theorem witness_CompletedCyclesGiveTheirStrobes :
    (start 0xD120 []).hostPhase.cycleEnabled = true ∧ (start 0xD120 []).hostPhase.changed = false ∧
      (start 0xD120 []).hostPhase.fetch = .ok 0xD120#16 ∧ decodeWord 0xD120#16 = some (.opDXYN 1 2 0) ∧
      faultOf (.opDXYN 1 2 0) (start 0xD120 []).hostPhase = none ∧
      (start 0x0000 []).hostPhase.cycleEnabled = true ∧ (∃ t, step (start 0x0000 []) = .next t ∧ t.fault ≠ none) :=
  ⟨by decide, by decide, by decide, by decide, by decide, by decide, _, rfl, by decide⟩
theorem witness_TimersCountDownEveryCompletedCycle :
    (start 0xFA15 []).hostPhase.cycleEnabled = true ∧ (start 0xFA15 []).hostPhase.fetch = .ok 0xFA15#16 ∧
      decodeWord 0xFA15#16 = some (.opFX15 10) ∧ faultOf (.opFX15 10) (start 0xFA15 []).hostPhase = none ∧
      decodeWord 0xF507#16 = some (.opFX07 5) ∧ (start 0xF507 []).hostPhase.fetch = .ok 0xF507#16 := by decide
theorem witness_BeepFollowsTheSoundTimer :
    (start 0xF218 [v 2 2#8]).hostPhase.cycleEnabled = true ∧
      (start 0xF218 [v 2 2#8]).hostPhase.fetch = .ok (encode (.opFX18 2)) := by decide
theorem witness_StoredBytesAreFetched :
    (0 : Reg).val + 1 ≤ (1 : Reg).val ∧ (i 0x0202#16 State.reset).mem.wf = true ∧
      (i 0x0202#16 State.reset).i.toNat + (1 : Reg).val < 4096 ∧
      (i 0x0202#16 State.reset).pc.toNat + 2 = (i 0x0202#16 State.reset).i.toNat + (0 : Reg).val := by decide
theorem witness_StepKeepsTheInvariant :
    (start 0x00E0 []).Inv ∧ (∃ t, step (start 0x00E0 []) = .next t) :=
  ⟨⟨by decide, by decide, by decide, by decide, by decide, by decide⟩, _, rfl⟩
theorem witness_StepKeepsMemoryCanonical :
    (start 0xF133 [v 1 234#8, i 0x0FFD#16]).mem.wf = true ∧ (∃ t, step (start 0xF133 [v 1 234#8, i 0x0FFD#16]) = .next t) :=
  ⟨by decide, _, rfl⟩
/-- Cells at both ends of memory, in either order of writing. -/
theorem witness_CanonicalMemoryIsUnique :
    ((State.reset.mem.write 0 1#8).write 4095 2#8).font = ((State.reset.mem.write 4095 2#8).write 0 1#8).font ∧
    ((State.reset.mem.write 0 1#8).write 4095 2#8).wf = true ∧ ((State.reset.mem.write 4095 2#8).write 0 1#8).wf = true ∧
      ∀ a : Nat, ((State.reset.mem.write 0 1#8).write 4095 2#8).read a = ((State.reset.mem.write 4095 2#8).write 0 1#8).read a :=
  ⟨rfl, by decide, by decide, fun _ => rfl⟩
theorem witness_BoundsCheckReportsTheLowestAddress :
    blockFault? 4095 2 = some 4096 ∧ blockFault? 0xFFFF 1 = some 0xFFFF ∧ blockFault? 4095 1 = none ∧
      blockFault? 0xFFFF 0 = none := by decide
theorem witness_CallPushesItsOwnAddress :
    (stack 15 0 0#16 State.reset).sp.val < 16 ∧ (stack 16 0 0#16 State.reset).sp.val = 16 := by decide
theorem witness_ReturnResumesBehindTheCall :
    (stack 16 15 0x0FFE#16 State.reset).sp.val = (15 : Fin 16).val + 1 ∧
      (stack 1 0 0#16 State.reset).sp.val = (0 : Fin 16).val + 1 ∧ State.reset.sp.val = 0 := by decide
theorem witness_CallThenReturnRestoresPcAndSp :
    (stack 15 0 0#16 State.reset).sp.val = (15 : Fin 16).val ∧
      (∃ t, exec (.op2NNN 0x300#12) (stack 15 0 0#16 State.reset) = .next t ∧
        ∃ u : State, u.sp = t.sp ∧ u.stk[(15 : Fin 16).val] = t.stk[(15 : Fin 16).val]) :=
  ⟨by decide, _, rfl, _, rfl, rfl⟩
/-- `x` other than F, and `z` other than `x` and F; and X = F under each `VF_PRIORITY`: for the statements about 8XY4, 8XY5,
8XY6, 8XY7 and 8XYE. -/
theorem witness_FlagWriters :
    (1 : Reg) ≠ 15 ∧ (2 : Reg) ≠ 1 ∧ (2 : Reg) ≠ 15 ∧ State.reset.vfPriority = .flag ∧
      (resultPriority State.reset).vfPriority = .result := by decide
/-- The same for the statements with one destination, X = F included, and for FX1E. -/
theorem witness_SingleDestination : (0 : Reg) ≠ 15 ∧ (14 : Reg) ≠ 15 ∧ (7 : Nat) < 8 := by decide
theorem witness_RandomByteIsMasked : (0x7F#8).getLsbD 7 = false ∧ (0#8 : Byte) = 0#8 ∧ (14 : Reg) ≠ 15 := by decide
theorem witness_StoreDecimalDigits :
    State.reset.mem.wf = true ∧ (i 0x0FFD#16 State.reset).i.toNat ≤ 4093 ∧ 4093 < (i 0x0FFE#16 State.reset).i.toNat ∧
      ¬(4093 ≤ 4092 ∧ 4092 < 4093 + 3) := by decide
theorem witness_StoreRegistersAndAdvanceIndex :
    State.reset.mem.wf = true ∧ (i 0x0FF0#16 State.reset).i.toNat + (15 : Reg).val ≤ 4095 ∧
      4095 < (i 0x0FF1#16 State.reset).i.toNat + (15 : Reg).val ∧ (15 : Reg) ≤ 15 := by decide
theorem witness_LoadRegistersAndAdvanceIndex :
    (i 0x0FFF#16 State.reset).i.toNat + (0 : Reg).val ≤ 4095 ∧ 4095 < (i 0x1000#16 State.reset).i.toNat + (0 : Reg).val := by
  decide
theorem witness_StoredRegistersLoadBack :
    State.reset.mem.wf = true ∧ (i 0x0FF0#16 State.reset).i.toNat + (15 : Reg).val ≤ 4095 ∧
      (∃ t, exec (.opFX55 15) (i 0x0FF0#16 State.reset) = .next t ∧
        ∃ u : State, u.mem = t.mem ∧ u.i = (i 0x0FF0#16 State.reset).i) :=
  ⟨by decide, by decide, _, rfl, { (nextOf (start 0xFF55 [i 0x0FF0#16])) with mem := _, i := 0x0FF0#16 }, rfl, rfl⟩

/-- A one-row sprite of the single left bit at the corner (63, 31), on a display with that pixel lit. -/
def corner : State := lit 63 31 (bytes 0x0FFF [0x80#8] (i 0x0FFF#16 (v 2 31#8 (v 1 63#8 State.reset))))

/-- The corner pixel is covered, the one to its left is not; the corner is lit under the sprite. -/
theorem witness_DrawIsXorWithTheSpriteMask :
    corner.i.toNat + (1 : Fin 16).val ≤ 4096 ∧ corner.spriteCovers 1 2 1 63 31 ∧ ¬corner.spriteCovers 1 2 1 62 31 ∧
      corner.getPixel 63 31 = true := by
  refine ⟨by decide, ⟨by decide, by decide, by decide, by decide, by decide⟩, fun h => absurd h.1 (by decide), by decide⟩
/-- With no row to draw nothing is covered, wherever `I` points. -/
theorem witness_DrawIsXorWithTheSpriteMask_no_rows :
    (0 : Fin 16).val = 0 ∧ ∀ (a : Fin 64) (b : Fin 32), (i 0xFFFF#16 corner).getPixel a b = true →
      ¬(i 0xFFFF#16 corner).spriteCovers 1 2 0 a.val b.val :=
  ⟨rfl, fun _ _ _ h => absurd h.2.2.2.1 (by have := h.2.2.1; simpa using this)⟩
theorem witness_DrawOutsideMemoryFaults :
    0 < (2 : Fin 16).val ∧ 4096 ≤ corner.i.toNat + (2 : Fin 16).val - 1 := by decide
theorem witness_DrawingTwiceRestoresTheDisplay :
    (1 : Reg) ≠ 15 ∧ (2 : Reg) ≠ 15 ∧ corner.i.toNat + (1 : Fin 16).val ≤ 4096 := by decide
theorem witness_SpritesOffTheCanvasAreDropped :
    64 ≤ ((v 1 64#8 State.reset).readV 1).toNat ∧ 32 ≤ ((v 2 32#8 State.reset).readV 2).toNat ∧
      State.reset.i.toNat + (15 : Fin 16).val ≤ 4096 := by decide
theorem witness_KeySkipsTestTheNamedKey :
    ((v 3 15#8 State.reset).readV 3).toNat = (15 : Fin 16).val ∧ 15 < ((v 3 16#8 State.reset).readV 3).toNat := by decide
/-- No key pressed, the highest alone, and two pressed under each `KEY_SELECT`. -/
theorem witness_WaitForKeyBlocksOrStoresAPressedKey :
    (∀ k < 16, State.reset.keys.getLsbD k = false) ∧ (key 15 State.reset).keys.getLsbD 15 = true ∧
      (key 15 (key 0 State.reset)).keys.getLsbD 15 = true ∧ (key 15 (key 0 State.reset)).keySelect = .lowest ∧
      (anyKey (key 15 (key 0 State.reset))).keys.getLsbD 15 = true ∧
      (anyKey (key 15 (key 0 State.reset))).keySelect = .any := by decide
/-- The shortest and the longest image. -/
theorem witness_ResetLoadsFontAndImage :
    1 ≤ (image 1).length ∧ (image 1).length ≤ 3584 ∧ 1 ≤ (image 3584).length ∧
      (image 3584).length ≤ 3584 := by simp
theorem witness_ResetIsRefusedWithoutAGoodImage :
    State.reset.rom = none ∧ (State.reset.hostDo (.loadRom [])).rom = some [] ∧
      3584 < (image 3585).length := ⟨rfl, rfl, by simp⟩
theorem witness_InitAndRunCommands :
    State.reset.initialized = true ∧ off.initialized = false ∧ off.running = false ∧ off.fault = none ∧
      (start 0x00E0 []).running = true ∧ State.reset.running = false ∧ State.reset.fault = none ∧
      (off.hostDo (.loadRom [0x12#8, 0x00#8])).rom = some [0x12#8, 0x00#8] :=
  ⟨rfl, rfl, rfl, rfl, rfl, rfl, rfl, rfl⟩
/-- Each of the three refusals, at the bounds of the length. -/
theorem witness_InitAndRunCommands_refused :
    refusalOf off.rom = some .noRomLoaded ∧ refusalOf (some []) = some .invalidState ∧
      refusalOf (some (image 3585)) = some (.capacityExceeded 3585) ∧ refusalOf (some (image 3584)) = none ∧
      refusalOf (some (image 1)) = none := by
  refine ⟨rfl, rfl, ?_, ?_, ?_⟩ <;> simp [refusalOf]
theorem witness_PausedMachinesHoldStill :
    ({ start 0x00E0 [] with inputs := [[.pause]] } : State).hostPhase.paused = true ∧
      ({ start 0x00E0 [] with inputs := [[.pause]] } : State).inputs = [.pause] :: [] ∧
      ({ State.reset with inputs := [[.unpause]] } : State).inputs = [.unpause] :: [] ∧
      ({ State.reset with inputs := [[.unpause]] } : State).running = false := by decide

/-- A running machine on hold at whose next boundary the host says unpause. -/
def onHold (pending : Bool) : State :=
  { start 0x6A7F [] with paused := true, resetPending := pending, inputs := [[.unpause]] }

theorem witness_PausedMachinesHoldStill_running :
    (onHold false).inputs = [.unpause] :: [] ∧ (onHold false).initialized = true ∧ (onHold false).running = true ∧
      (onHold false).fault = none ∧ (onHold false).resetPending = false ∧ (onHold true).inputs = [.unpause] :: [] ∧
      (onHold true).running = true ∧ (onHold true).resetPending = true := by decide
/-- R230: the cycle after unpause is that of 6A7F (T-A1); while on hold nothing moves. -/
theorem test_unpause :
    ends (onHold false) (fun t => t.readV 10 == 0x7F#8 && t.pc == 0x0202#16) = true ∧
      ends { onHold false with inputs := [] } (fun t => t.readV 10 == 0x00#8 && t.pc == 0x0200#16) = true := by decide
theorem witness_CyclesRunOnlyWhenEnabled :
    State.reset.hostPhase.running = false ∧ State.reset.hostPhase.resetPending = false ∧
      (nextOf (start 0x00EE [])).hostPhase.fault ≠ none ∧
      ({ start 0x00E0 [] with inputs := [[.stop]] } : State).inputs = [.stop] :: [] := by decide
theorem witness_DeferredResetOfARunningMachine :
    (start 0x00E0 []).running = true ∧ State.reset.running = false ∧
      (State.reset.hostDo (.loadRom [0#8])).rom = some [0#8] ∧ refusalOf State.reset.rom = some .noRomLoaded := by decide

/-- A running machine with an image, or none, at whose next boundary the host says reset. -/
def resetting (rom : Option (List Byte)) : State := { start 0x00E0 [] with rom := rom, inputs := [[.reset]] }

/-- The reset is due at the boundary at which the host says so, with each kind of image. -/
theorem witness_DeferredResetOfARunningMachine_due :
    (resetting (some [0#8])).inputs = [.reset] :: [] ∧ (resetting (some [0#8])).running = true ∧
      (resetting (some [0#8])).paused = false ∧ (resetting (some [0#8])).hostPhase.running = true ∧
      (resetting (some [0#8])).hostPhase.paused = false ∧ (resetting (some [0#8])).hostPhase.resetPending = true ∧
      (resetting (some [0#8])).hostPhase.rom = some [0#8] ∧
      refusalOf (resetting none).hostPhase.rom = some .noRomLoaded ∧
      refusalOf (resetting (some [])).hostPhase.rom = some .invalidState := by decide
/-- R228: the machine is a run away from power-on, and the step of the reset ends in the reset state, still running. -/
theorem test_deferred_reset :
    ends { off with inputs := [[.loadRom [0x6A#8, 0x7F#8], .run], [.reset]] } (fun t =>
      t.readV 10 == 0x7F#8 && ends t (fun u => u.readV 10 == 0#8 && u.pc == 0x0200#16 && u.running && !u.resetPending)) =
        true := by decide
/-- A step that stores into the font area. -/
theorem witness_FontIsAnArgument :
    ∃ t, step (start 0xF033 [v 0 255#8]) = .next t ∧ t.mem.read 0 = 2#8 := ⟨_, rfl, by decide⟩
/-- A step that resets a machine with other arguments than the default. -/
theorem witness_VfPriorityAndKeySelectAreArguments :
    ∃ t, step (resultPriority (anyKey { start 0x00E0 [] with rom := some [0#8], resetPending := true })) = .next t ∧
      t.pc = 0x0200#16 ∧ t.resetPending = false := ⟨_, rfl, by decide⟩
theorem witness_BootRunsTheFirstWordOfTheImage : (image 3582).length ≤ 3582 := by simp

end Sys2Proof.Tests
end

/-! The statements about the machine as a whole and its arguments: what an instruction leaves alone, the instructions that
write a result or a flag, FX0A, boot, and the constancy of `FONT`, `VF_PRIORITY` and `KEY_SELECT`. -/

namespace Sys2Proof.Machine

/-! ### The part of the state that no instruction writes -/

/-- The arguments of the machine (R6). -/
def State.arguments (s : State) : Config.FontTable × Config.VfPriority × Config.KeySelect :=
  (s.mem.font, s.vfPriority, s.keySelect)

/-- What is the host's alone: keys, run-control flags other than `running`, image, cycle delay, ports and arguments. -/
structure HostPart where
  keys : BitVec 16
  initialized : Bool
  paused : Bool
  resetPending : Bool
  rom : Option (List Byte)
  cycleDelayMs : Nat
  inputs : List (List HostCmd)
  strobes : List Strobe
  answers : List HostAnswer
  arguments : Config.FontTable × Config.VfPriority × Config.KeySelect

/-- The host's part of a state. -/
def State.hostPart (s : State) : HostPart where
  keys := s.keys
  initialized := s.initialized
  paused := s.paused
  resetPending := s.resetPending
  rom := s.rom
  cycleDelayMs := s.cycleDelayMs
  inputs := s.inputs
  strobes := s.strobes
  answers := s.answers
  arguments := s.arguments

/-- `t` has the host's part of `s`, its `running` and its fault latch: what an instruction without a fault leaves. -/
structure State.Undisturbed (s t : State) : Prop where
  hostPart : t.hostPart = s.hostPart
  running : t.running = s.running
  fault : t.fault = s.fault

@[simp] theorem State.hostPart_takeFault (s : State) (f : Fault) : (s.takeFault f).hostPart = s.hostPart := rfl

/-- Stored bytes are no argument: the host's part does not see them. -/
theorem State.hostPart_writeBytes (s : State) (a : Nat) (ws : List Byte) :
    ({ s with mem := s.mem.writeBytes a ws } : State).hostPart = s.hostPart := by
  simp [State.hostPart, State.arguments]

/-! ### What an instruction does to the host's part -/

/-- `t` is what an instruction whose fault in `s` is `fault?` answers, as far as the host's part, `running` and the latch
go: the fault taken, or none of them touched. -/
def State.FaultsOrUndisturbed (s : State) (fault? : Option Fault) (t : State) : Prop :=
  (∃ f, fault? = some f ∧ t = s.takeFault f) ∨ s.Undisturbed t

/-- A checked access whose writes leave the host's part alone, beside its row in the table of faults. -/
theorem faultsOrUndisturbed_of_checkBlock {s t done : State} {base count : Nat} {c : Prop} [Decidable c]
    (h : checkBlock s base count done = .next t) (hc : (0 < count ∧ 4096 < base + count) ↔ c)
    (hdone : s.Undisturbed done) :
    s.FaultsOrUndisturbed (if c then some (.outOfBounds (max base 4096) s.pc) else none) t := by
  rw [checkBlock_eq] at h
  obtain rfl := Host.Outcome.next.inj h
  by_cases hf : c
  · exact .inl ⟨_, if_pos hf, if_pos (hc.mpr hf)⟩
  · rw [if_neg (mt hc.mp hf)]
    exact .inr hdone

/-- A conditional skip on a key: a fault above 15, else only `pc` moves. -/
theorem State.faultsOrUndisturbed_skipOnKey (s : State) (x : Reg) (down : Bool) :
    s.FaultsOrUndisturbed
      (if 15 < (s.readV x).toNat then some (.invalidKeyIndex (s.readV x) s.pc) else none) (s.skipOnKey x down) := by
  unfold State.skipOnKey
  cases hk : keyIndex? (s.readV x) with
  | none => exact .inl ⟨_, if_pos (keyIndex?_eq_none.mp hk), rfl⟩
  | some k => exact .inr ⟨rfl, rfl, rfl⟩

/-- FX0A with a key to store. -/
theorem exec_opFX0A_of_selectKey {s : State} {k : Fin 16} (x : Reg) (h : s.selectKey = some k) :
    exec (.opFX0A x) s = .next ((s.countKeyChoice.writeV x (BitVec.ofNat 8 k.val)).advance 2#16) := by
  simp only [exec, execFX0A, h]

/-- FX0A with no key pressed waits. -/
theorem exec_opFX0A_of_none {s : State} (x : Reg) (h : s.selectKey = none) : exec (.opFX0A x) s = .next s := by
  simp only [exec, execFX0A, h]

/-- Every instruction takes the fault the spec's table names, or leaves the host's part, `running` and the latch alone. -/
theorem exec_faultsOrUndisturbed {i : Instr} {s t : State} (h : exec i s = .next t) :
    s.FaultsOrUndisturbed (faultOf i s) t := by
  cases i with
  | op00EE =>
    simp only [exec, exec00EE] at h
    split at h <;> obtain rfl := Host.Outcome.next.inj h
    · next hp =>
      obtain ⟨-, -, rfl⟩ := State.pop?_eq_some.mp hp
      exact .inr ⟨rfl, rfl, rfl⟩
    · next hp => exact .inl ⟨_, if_pos (State.pop?_eq_none.mp hp), rfl⟩
  | op2NNN nnn =>
    simp only [exec, exec2NNN] at h
    split at h <;> obtain rfl := Host.Outcome.next.inj h
    · next hp =>
      obtain ⟨-, rfl⟩ := State.push?_eq_some.mp hp
      exact .inr ⟨rfl, rfl, rfl⟩
    · next hp => exact .inl ⟨_, if_pos (State.push?_eq_none.mp hp), rfl⟩
  | opFX0A x =>
    cases hk : s.selectKey with
    | none => rw [exec_opFX0A_of_none x hk] at h; cases h; exact .inr ⟨rfl, rfl, rfl⟩
    | some k => rw [exec_opFX0A_of_selectKey x hk] at h; cases h; exact .inr ⟨rfl, rfl, rfl⟩
  | opEX9E x => obtain rfl := Host.Outcome.next.inj h; exact s.faultsOrUndisturbed_skipOnKey x true
  | opEXA1 x => obtain rfl := Host.Outcome.next.inj h; exact s.faultsOrUndisturbed_skipOnKey x false
  | opDXYN x y n => exact faultsOrUndisturbed_of_checkBlock h (by omega) ⟨rfl, rfl, rfl⟩
  | opFX33 x =>
    exact faultsOrUndisturbed_of_checkBlock h (by omega) ⟨s.hostPart_writeBytes _ _, rfl, rfl⟩
  | opFX55 x =>
    exact faultsOrUndisturbed_of_checkBlock h (by simp only [blockCount]; omega)
      ⟨s.hostPart_writeBytes _ _, rfl, rfl⟩
  | opFX65 x =>
    exact faultsOrUndisturbed_of_checkBlock h (by simp only [blockCount]; omega) ⟨rfl, rfl, rfl⟩
  | _ => obtain rfl := Host.Outcome.next.inj h; exact .inr ⟨rfl, rfl, rfl⟩

/-- No instruction writes the host's part. -/
theorem exec_hostPart {i : Instr} {s t : State} (h : exec i s = .next t) : t.hostPart = s.hostPart := by
  obtain ⟨f, -, rfl⟩ | hu := exec_faultsOrUndisturbed h
  · exact s.hostPart_takeFault f
  · exact hu.hostPart

/-- An instruction for which the table names no fault leaves `running` and the latch too. -/
theorem exec_undisturbed {i : Instr} {s t : State} (h : exec i s = .next t) (hf : faultOf i s = none) :
    s.Undisturbed t := by
  obtain ⟨f, hsome, -⟩ | hu := exec_faultsOrUndisturbed h
  · rw [hf] at hsome; cases hsome
  · exact hu

/-- Settles O14: the host's part is one value that every instruction keeps; the split is that of the table of faults. -/
theorem instructionsLeaveTheHostsStateAlone : Obligations.InstructionsLeaveTheHostsStateAlone := by
  intro i s t h
  have hp := exec_hostPart h
  simp only [State.hostPart, State.arguments, HostPart.mk.injEq, Prod.mk.injEq] at hp
  obtain ⟨keys, initialized, paused, resetPending, rom, delay, inputs, strobes, answers, font, vf, key⟩ := hp
  exact ⟨keys, initialized, paused, resetPending, rom, delay, font, vf, key, inputs, strobes, answers,
    fun hf => ⟨(exec_undisturbed h hf).fault, (exec_undisturbed h hf).running⟩⟩

/-! ### A result in `V[X]` and a flag in VF (R22, R114) -/

/-- `t` is `s` with the number `r` in `V[X]`, the flag `b` in VF (one of the two by `VF_PRIORITY` when X = F) and `pc` two
further. -/
def State.WritesResultAndFlag (s : State) (x : Reg) (r b : Nat) (t : State) : Prop :=
  (x ≠ 15 ∨ s.vfPriority = .result → (t.readV x).toNat = r) ∧ (x ≠ 15 ∨ s.vfPriority = .flag → (t.readV 15).toNat = b) ∧
    (∀ z : Reg, z ≠ x → z ≠ 15 → t.readV z = s.readV z) ∧ t = { s with v := t.v, pc := s.pc + 2#16 }

/-- The common end of 8XY4 to 8XY7 and 8XYE, for a result and a flag of which the numbers are known. -/
theorem State.writesResultAndFlag (s : State) (x : Reg) {w : Byte} {f : Bool} {r b : Nat} (hr : w.toNat = r)
    (hb : (if f then 1 else 0) = b) : s.WritesResultAndFlag x r b ((s.writeResultFlag x w f).advance 2#16) := by
  have read (z : Reg) : ((s.writeResultFlag x w f).advance 2#16).readV z =
      if VF = z ∧ (x = z → s.vfPriority = .flag) then flagByte f else if x = z then w else s.readV z :=
    s.readV_writeResultFlag x w f z
  refine ⟨fun hx => ?_, fun hx => ?_, fun z hzx hz => ?_, rfl⟩
  · have : ¬(VF = x ∧ (x = x → s.vfPriority = .flag)) := by
      rintro ⟨rfl, hflag⟩
      simp [hflag rfl, VF] at hx
    rw [read, if_neg this, if_pos rfl, hr]
  · have : VF = 15 ∧ (x = 15 → s.vfPriority = .flag) := ⟨rfl, fun h => hx.resolve_left (absurd h)⟩
    rw [read, if_pos this, toNat_flagByte, hb]
  · rw [read, if_neg fun h => hz h.1.symm, if_neg hzx.symm]

/-- Bit 0, which 8XY6 shifts out, as a number. -/
theorem shiftedOutRight_toNat (a : Byte) : (if shiftedOutRight a then 1 else 0) = a.toNat % 2 := by
  simp only [shiftedOutRight, BitVec.getLsbD, Nat.testBit_zero, decide_eq_true_eq]
  split <;> omega

/-- Bit 7, which 8XYE shifts out, as a number. -/
theorem shiftedOutLeft_toNat (a : Byte) : (if shiftedOutLeft a then 1 else 0) = a.toNat / 128 := by
  have := a.isLt
  simp only [shiftedOutLeft, BitVec.getLsbD, Nat.testBit_eq_decide_div_mod_eq, decide_eq_true_eq]
  split <;> omega

/-- A difference modulo 256, the minuend first. -/
theorem toNat_byte_sub (a b : Byte) : (a - b).toNat = (a.toNat + 256 - b.toNat) % 256 := by
  rw [BitVec.toNat_sub]; have := b.isLt; congr 1; omega

/-- Settles O33: the common end of the flag-writing instructions, with the sum and the carry. -/
theorem addWritesSumAndCarry : Obligations.AddWritesSumAndCarry := fun x _ s =>
  ⟨_, rfl, s.writesResultAndFlag x (BitVec.toNat_add _ _) (by simp [carryOut])⟩

/-- Settles O34: the common end of the flag-writing instructions, with the difference and the complement of the borrow. -/
theorem subtractionsWriteDifferenceAndNotBorrow : Obligations.SubtractionsWriteDifferenceAndNotBorrow := fun x _ s =>
  ⟨⟨_, rfl, s.writesResultAndFlag x (toNat_byte_sub _ _) (by simp [notBorrow])⟩,
    ⟨_, rfl, s.writesResultAndFlag x (toNat_byte_sub _ _) (by simp [notBorrow])⟩⟩

/-- Settles O35: the common end of the flag-writing instructions, with the shifted value and the bit shifted out. -/
theorem shiftsReportTheBitShiftedOut : Obligations.ShiftsReportTheBitShiftedOut := fun x s =>
  ⟨⟨_, fun _ => rfl, s.writesResultAndFlag x (by simp [Nat.shiftRight_eq_div_pow]) (shiftedOutRight_toNat _)⟩,
    ⟨_, fun _ => rfl, s.writesResultAndFlag x (by simp [Nat.shiftLeft_eq]) (shiftedOutLeft_toNat _)⟩⟩

/-- Settles O38: the index and the flag are written apart, so VF holds the flag whatever X is. -/
theorem addToIndexReportsOverflow : Obligations.AddToIndexReportsOverflow := by
  intro x s
  have read (z : Reg) := ({ s with i := s.i + zextV (s.readV x) } : State).readV_writeFlag
    (indexOverflow s.i (s.readV x)) z
  refine ⟨_, rfl, ?_, ?_, fun z hz => ?_, rfl⟩
  · exact (BitVec.toNat_add _ _).trans (by rw [toNat_zextV])
  · exact (congrArg BitVec.toNat (read 15)).trans (by simp [indexOverflow])
  · exact (read z).trans (if_neg hz.symm)

/-! ### FX0A -/

/-- Settles O49: FX0A as `selectKey` answers, which names a pressed key whenever there is one. -/
theorem waitForKeyBlocksOrStoresAPressedKey : Obligations.WaitForKeyBlocksOrStoresAPressedKey := by
  intro x s
  refine ⟨fun h => exec_opFX0A_of_none x (State.selectKey_eq_none.mpr fun k => h k k.isLt), fun k hk hkey => ?_,
    fun k hk => exists_pickKey_any (State.mem_pressedKeys.mpr hk)⟩
  obtain ⟨j, hj⟩ : ∃ j, s.selectKey = some j := Option.ne_none_iff_exists'.mp fun hn => by
    simpa [State.keyDown, hkey] using State.selectKey_eq_none.mp hn ⟨k, hk⟩
  have read (z : Reg) := s.countKeyChoice.readV_writeV x (BitVec.ofNat 8 j.val) z
  have stored : (((s.countKeyChoice.writeV x (BitVec.ofNat 8 j.val)).advance 2#16).readV x).toNat = j.val :=
    (congrArg BitVec.toNat (read x)).trans (by rw [if_pos rfl, BitVec.toNat_ofNat]; omega)
  refine ⟨_, exec_opFX0A_of_selectKey x hj, ?_⟩
  rw [stored]
  refine ⟨j.isLt, State.keyDown_of_selectKey hj, fun hp => ⟨by simp [hp], fun i hi => ?_⟩,
    fun hp => ⟨by simp [hp], j, ?_, rfl⟩, fun z hz => (read z).trans (if_neg hz.symm), rfl⟩
  · exact ((State.selectKey_lowest hp).mp hj).2 ⟨i, by omega⟩ hi
  · rwa [State.selectKey, hp] at hj

/-! ### Boot -/

/-- The memory before an image is loaded is in canonical form. -/
theorem Memory.wf_font (font : Config.FontTable) : (⟨font, []⟩ : Memory).wf = true := rfl

/-- After a reset byte `k` of the image stands at `0x200 + k` (R57). -/
theorem Memory.read_afterReset_image (font : Config.FontTable) {rom : List Byte} (hlen : rom.length ≤ 3584) {k : Nat}
    (hk : k < rom.length) : (Memory.afterReset font rom).read (0x200 + k) = rom.getD k 0#8 := by
  rw [Memory.afterReset, Memory.read_writeBytes (Memory.wf_font font) (by simp only [Config.romBase]; omega),
    if_pos (by simp only [Config.romBase]; omega), Nat.add_sub_cancel_left]

/-- The machine at power-on to which the host gives `load_rom` and `run` at its first boundary. -/
def State.booting (font : Config.FontTable) (p : Config.VfPriority) (k : Config.KeySelect) (rom : List Byte) : State :=
  { State.powerOn font p k with inputs := [[.loadRom rom, .run]] }

/-- `run` of a stopped, uninitialised machine with a good image is the reset with that image, and the machine runs
(R229). -/
theorem State.hostDo_run_of_image {s : State} {rom : List Byte} (hrun : s.running = false) (hfault : s.fault = none)
    (hinit : s.initialized = false) (hrom : s.rom = some rom) (h1 : 1 ≤ rom.length) (h2 : rom.length ≤ 3584) :
    s.hostDo .run = ({ s with running := true } : State).resetWith rom := by
  have good : ({ s with running := true } : State).performReset = ({ s with running := true } : State).resetWith rom :=
    State.performReset_of_image hrom h1 h2
  rw [State.hostDo, if_neg (by simp [hrun, hfault]), if_neg (by simp [hinit]), State.performLoopReset, good]
  rfl

/-- Boot: `run` performs the reset, which writes every content that power-on leaves open (R229, R240). -/
theorem State.hostPhase_booting (font : Config.FontTable) (p : Config.VfPriority) (k : Config.KeySelect)
    {rom : List Byte} (h1 : 1 ≤ rom.length) (h2 : rom.length ≤ 3584) :
    (State.booting font p k rom).hostPhase =
      { State.reset with
        mem := Memory.afterReset font rom, vfPriority := p, keySelect := k, rom := some rom, running := true,
        freeIdx := 1 } := by
  have run := State.hostDo_run_of_image (s := { State.powerOn font p k with rom := some rom }) rfl rfl rfl rfl h1 h2
  exact run.trans rfl

/-- Settles O58: `hostPhase_booting` enables a cycle at 0x200, where the image begins. -/
theorem bootRunsTheFirstWordOfTheImage : Obligations.BootRunsTheFirstWordOfTheImage := by
  intro font p k b c rest hlen
  have h2 : (b :: c :: rest).length ≤ 3584 := by simp only [List.length_cons]; omega
  have boot := State.hostPhase_booting font p k (rom := b :: c :: rest) (by simp) h2
  refine ⟨boot, step_of_cycleEnabled ?_, ?_⟩
  · exact (congrArg State.cycleEnabled boot).trans rfl
  · refine (congrArg State.fetch boot).trans (State.fetch_eq_ok.mpr ⟨(by decide : (0x0200#16).toNat < 4095), ?_⟩)
    exact congrArg₂ joinBytes (Memory.read_afterReset_image font h2 (k := 0) (by simp)).symm
      (Memory.read_afterReset_image font h2 (k := 1) (by simp)).symm

/-! ### The arguments -/

/-- A reset, refused or not, keeps the arguments. -/
@[simp] theorem State.arguments_performReset (s : State) : s.performReset.arguments = s.arguments := by
  have other : s.performReset.vfPriority = s.vfPriority ∧ s.performReset.keySelect = s.keySelect := by
    rcases s.performReset_cases with ⟨_, _, h⟩ | ⟨_, _, h⟩ <;> rw [h] <;> exact ⟨rfl, rfl⟩
  simp only [State.arguments, s.performReset_font, other]

/-- A deferred reset keeps the arguments. -/
theorem State.arguments_honourReset (s : State) : s.honourReset.arguments = s.arguments :=
  State.arguments_performReset { s with initialized := false }

/-- No command of the host changes an argument. -/
theorem State.arguments_hostDo (s : State) (c : HostCmd) : (s.hostDo c).arguments = s.arguments := by
  cases c with
  | init =>
    simp only [State.hostDo]
    split
    · rfl
    · exact s.arguments_performReset
  | run =>
    simp only [State.hostDo]
    split
    · rfl
    · split
      · rfl
      · exact State.arguments_performReset { s with running := true }
  | reset =>
    simp only [State.hostDo]
    split
    · rfl
    · exact State.arguments_performReset { s with initialized := false }
  | setCycleSpeedHz hz => simp only [State.hostDo]; split <;> rfl
  | _ => rfl

/-- No boundary changes an argument. -/
theorem State.arguments_hostPhase (s : State) : s.hostPhase.arguments = s.arguments :=
  State.hostPhase_induction (P := fun u => u.arguments = s.arguments) rfl fun u c hu => (u.arguments_hostDo c).trans hu

/-- The end of a cycle changes no argument. -/
theorem State.arguments_finishCycle (s : State) : s.finishCycle.arguments = s.arguments := by
  simp only [State.finishCycle]; split <;> rfl

/-- No cycle changes an argument. -/
theorem cycle_arguments {s t : State} (h : cycle s = .next t) : t.arguments = s.arguments := by
  obtain ⟨f, -, rfl⟩ | ⟨op, -, -, rfl⟩ | ⟨op, i, u, -, -, hu, rfl⟩ := cycle_cases h
  · rfl
  · rfl
  · exact u.arguments_finishCycle.trans (congrArg HostPart.arguments (exec_hostPart hu))

/-- No step changes an argument (R6). -/
theorem step_arguments {s t : State} (h : step s = .next t) : t.arguments = s.arguments := by
  refine Eq.trans ?_ s.arguments_hostPhase
  obtain ⟨-, rfl⟩ | ⟨-, hc⟩ | ⟨-, -, rfl⟩ := step_cases h
  · exact State.arguments_honourReset _
  · exact cycle_arguments hc
  · rfl

/-- Under every value of the arguments the reset state meets the invariant. -/
theorem State.inv_reset (font : Config.FontTable) (p : Config.VfPriority) (k : Config.KeySelect) :
    ({ State.reset with mem := ⟨font, []⟩, vfPriority := p, keySelect := k } : State).Inv where
  mem_wf := Memory.wf_font font
  changed_clear _ := rfl
  fault_stops _ := rfl
  running_initialized _ := rfl
  pc_bound _ := (by decide : (0x0200#16).toNat ≤ 0x10FE)
  stk_bound _ n := by simp [State.reset]

/-- Settles O59: `FONT` is one of the arguments every step keeps; with no cell listed every address reads from it. -/
theorem fontIsAnArgument : Obligations.FontIsAnArgument :=
  ⟨fun _ _ h => congrArg Prod.fst (step_arguments h), fun font => ⟨State.inv_reset font _ _, fun _ => rfl⟩⟩

/-- Settles O60: both are among the arguments every step keeps. -/
theorem vfPriorityAndKeySelectAreArguments : Obligations.VfPriorityAndKeySelectAreArguments :=
  ⟨fun _ _ h => Prod.mk.inj (congrArg Prod.snd (step_arguments h)), fun p k => State.inv_reset _ p k⟩

end Sys2Proof.Machine

/-! The statements about the state: what each instruction writes and leaves, where it faults, the invariant of the machine,
and the contents after a reset. -/

namespace Sys2Proof.Machine

/-! ### An instruction takes its fault or completes -/

/-- What an instruction gives where the table names no fault for it (`exec_eq` ties it to `exec`): the meanings that can
fault without their guards, FX0A field by field, every other meaning as it stands. -/
def completed (i : Instr) (s : State) : State :=
  match i with
  | .op00EE =>
    { s with
      sp := ⟨s.sp.val - 1, by omega⟩
      pc := (if h : 0 < s.sp.val then s.stk[s.sp.val - 1] else 0#16) + 2#16 }
  | .op2NNN nnn =>
    { s with
      stk := if h : s.sp.val < 16 then s.stk.set s.sp.val s.pc else s.stk
      sp := ⟨min (s.sp.val + 1) 16, by omega⟩
      pc := immNNN nnn }
  | .opFX0A x =>
    { s with
      v := s.selectKey.elim s.v fun k => s.v.set x.val (BitVec.ofNat 8 k.val)
      pc := s.selectKey.elim s.pc fun _ => s.pc + 2#16
      freeIdx := s.selectKey.elim s.freeIdx fun _ => s.countKeyChoice.freeIdx }
  | .opDXYN x y n =>
    (({ s with fb := (s.drawn x y n).fb, changed := true } : State).writeFlag (s.drawn x y n).collision).advance 2#16
  | .opEX9E x => s.skipIf (s.keys.getLsbD (s.readV x).toNat)
  | .opEXA1 x => s.skipIf (!s.keys.getLsbD (s.readV x).toNat)
  | .opFX33 x => ({ s with mem := s.mem.writeBytes (s.effAddr 0) (bcdDigits (s.readV x)) } : State).advance 2#16
  | .opFX55 x =>
    ({ s with mem := s.mem.writeBytes (s.effAddr 0) (s.regsUpTo x), i := s.indexPast x } : State).advance 2#16
  | .opFX65 x => ({ s with v := s.loadedRegs x, i := s.indexPast x } : State).advance 2#16
  | _ =>
    match exec i s with
    | .next t => t
    | .fault _ | .refused _ => s

/-- The state after the execute stage: the fault the table names taken, else the instruction completed. -/
def executed (i : Instr) (s : State) : State :=
  match faultOf i s with
  | some f => s.takeFault f
  | none => completed i s

/-- Where the row of the table is a condition `c`, the state after the execute stage is a choice on `c`. -/
theorem executed_of_ite {i : Instr} {s : State} {c : Prop} [Decidable c] {f : Fault}
    (h : faultOf i s = if c then some f else none) :
    executed i s = if c then s.takeFault f else completed i s := by
  by_cases hc : c
  · rw [if_pos hc] at h ⊢; rw [executed, h]
  · rw [if_neg hc] at h ⊢; rw [executed, h]

/-- A checked access is its row in the table of faults: the fault taken, or the writes done. -/
theorem checkBlock_eq_ite (s : State) (base count : Nat) (done : State) {c : Prop} [Decidable c]
    (hc : (0 < count ∧ 4096 < base + count) ↔ c) :
    checkBlock s base count done =
      .next (if c then s.takeFault (.outOfBounds (max base 4096) s.pc) else done) := by
  rw [checkBlock_eq]
  simp only [hc]

/-- The conditional skip on a key as a choice on its key index. -/
theorem State.skipOnKey_eq (s : State) (x : Reg) (down : Bool) :
    s.skipOnKey x down =
      if 15 < (s.readV x).toNat then s.takeFault (.invalidKeyIndex (s.readV x) s.pc)
      else s.skipIf (s.keys.getLsbD (s.readV x).toNat == down) := by
  unfold State.skipOnKey
  cases hk : keyIndex? (s.readV x) with
  | none => rw [if_pos (keyIndex?_eq_none.mp hk)]
  | some k =>
    have hv := keyIndex?_eq_some.mp hk
    rw [if_neg (by omega), hv]
    rfl

/-- Every instruction answers a next state: the fault the table names taken, else the instruction completed. -/
theorem exec_eq (i : Instr) (s : State) : exec i s = .next (executed i s) := by
  cases i with
  | op00EE =>
    rw [executed_of_ite rfl]
    by_cases h : s.sp.val = 0
    · simp only [exec, exec00EE, State.pop?_eq_none.mpr h, if_pos h]
    · have hpos : 0 < s.sp.val := by omega
      simp only [exec, exec00EE, State.pop?_eq_some.mpr ⟨hpos, rfl, rfl⟩, if_neg h, completed, dif_pos hpos]
      rfl
  | op2NNN nnn =>
    rw [executed_of_ite rfl]
    by_cases h : s.sp.val = 16
    · simp only [exec, exec2NNN, State.push?_eq_none.mpr h, if_pos h]
    · have hlt : s.sp.val < 16 := by omega
      have hmin : min (s.sp.val + 1) 16 = s.sp.val + 1 := by omega
      simp only [exec, exec2NNN, State.push?_eq_some.mpr ⟨hlt, rfl⟩, if_neg h, completed, hmin, dif_pos hlt]
      rfl
  | opEX9E x =>
    rw [executed_of_ite rfl, exec, execEX9E, State.skipOnKey_eq]
    simp only [completed, beq_true]
  | opEXA1 x =>
    rw [executed_of_ite rfl, exec, execEXA1, State.skipOnKey_eq]
    simp only [completed, beq_false]
  | opDXYN _ _ _ | opFX33 _ =>
    rw [executed_of_ite rfl]
    exact checkBlock_eq_ite s _ _ _ (by simp only [State.effAddr]; omega)
  | opFX55 _ | opFX65 _ =>
    rw [executed_of_ite rfl]
    exact checkBlock_eq_ite s _ _ _ (by simp only [State.effAddr, blockCount]; omega)
  | opFX0A x =>
    simp only [exec, execFX0A, executed, faultOf, completed]
    cases s.selectKey <;> rfl
  | _ => rfl

/-- An instruction for which the table names a fault takes it. -/
theorem exec_of_fault {i : Instr} {s : State} {f : Fault} (h : faultOf i s = some f) :
    exec i s = .next (s.takeFault f) := by
  rw [exec_eq, executed, h]

/-- An instruction for which the table names no fault completes. -/
theorem exec_of_no_fault {i : Instr} {s : State} (h : faultOf i s = none) : exec i s = .next (completed i s) := by
  rw [exec_eq, executed, h]

/-- What an instruction that answers a state did: it took the fault the table names, or it completed. -/
theorem exec_cases {i : Instr} {s t : State} (h : exec i s = .next t) :
    (∃ f, faultOf i s = some f ∧ t = s.takeFault f) ∨ (faultOf i s = none ∧ t = completed i s) := by
  cases hf : faultOf i s with
  | some f => exact .inl ⟨f, rfl, Host.Outcome.next.inj (h.symm.trans (exec_of_fault hf))⟩
  | none => exact .inr ⟨rfl, Host.Outcome.next.inj (h.symm.trans (exec_of_no_fault hf))⟩

/-- FX0A finds no key exactly when the key word is 0. -/
theorem State.selectKey_eq_none_iff_keys {s : State} : s.selectKey = none ↔ s.keys = 0#16 := by
  rw [State.selectKey_eq_none]
  constructor
  · exact fun h => BitVec.eq_of_getLsbD_eq fun k hk => (h ⟨k, hk⟩).trans BitVec.getLsbD_zero.symm
  · intro h k; simp [State.keyDown, h]

/-- A key that FX0A finds is a bit of the key word. -/
theorem State.keys_ne_zero_of_selectKey {s : State} {k : Fin 16} (h : s.selectKey = some k) : s.keys ≠ 0#16 := by
  intro e
  rw [State.selectKey_eq_none_iff_keys.mpr e] at h
  cases h

/-! ### The next `pc` (R25) -/

/-- `pc` behind a skip that the condition `c` decides, as a number. -/
theorem State.toNat_pc_skipIf (s : State) (c : Bool) :
    (s.skipIf c).pc.toNat = (s.pc.toNat + if c then 4 else 2) % 65536 := by
  cases c <;> exact BitVec.toNat_add _ _

/-- `pc` behind a skip that the condition `c` prevents, as a number. -/
theorem State.toNat_pc_skipIf_not (s : State) (c : Bool) :
    (s.skipIf (!c)).pc.toNat = (s.pc.toNat + if c then 2 else 4) % 65536 := by
  cases c <;> exact BitVec.toNat_add _ _

/-- Bytes are equal exactly when their numbers are. -/
theorem byte_beq_iff {a b : Byte} : (a == b) = true ↔ a.toNat = b.toNat := by
  rw [beq_iff_eq, BitVec.toNat_inj]

/-- A completed instruction leaves the `pc` that rule R25 gives. -/
theorem toNat_pc_completed (i : Instr) (s : State) : (completed i s).pc.toNat = nextPc i s := by
  cases i with
  | op1NNN nnn | op2NNN nnn => exact toNat_immNNN nnn
  | op00EE => exact BitVec.toNat_add _ _
  | opBNNN nnn =>
    refine (BitVec.toNat_add _ _).trans ?_
    rw [toNat_immNNN, toNat_zextV, nextPc]
    omega
  | op3XNN _ _ | op5XY0 _ _ => simp only [nextPc, ← byte_beq_iff]; exact State.toNat_pc_skipIf _ _
  | op4XNN _ _ | op9XY0 _ _ => simp only [nextPc, ← byte_beq_iff]; exact State.toNat_pc_skipIf_not _ _
  | opEX9E x => exact State.toNat_pc_skipIf _ _
  | opEXA1 x => exact State.toNat_pc_skipIf_not _ _
  | opFX0A x =>
    simp only [completed, nextPc]
    cases hk : s.selectKey with
    | none => rw [if_pos (State.selectKey_eq_none_iff_keys.mp hk)]; rfl
    | some k => rw [if_neg (State.keys_ne_zero_of_selectKey hk)]; exact BitVec.toNat_add _ _
  | _ => exact BitVec.toNat_add _ _

/-- Settles O10: an instruction takes the fault its row names or completes, with the `pc` of R25. -/
theorem instructionsExecuteOrFaultByTheTables : Obligations.InstructionsExecuteOrFaultByTheTables := by
  refine fun i s => ⟨fun f hf => exec_of_fault hf, fun hf => ?_⟩
  have hu := exec_undisturbed (exec_of_no_fault hf) hf
  exact ⟨_, exec_of_no_fault hf, hu.fault, hu.running, toNat_pc_completed i s⟩

/-! ### Registers (R21) -/

/-- A register write leaves every other register. -/
theorem State.readV_writeV_of_ne (s : State) {x z : Reg} (w : Byte) (h : (z == x) = false) :
    (s.writeV x w).readV z = s.readV z := by
  rw [State.readV_writeV, if_neg (beq_eq_false_iff_ne.mp h).symm]

/-- A write of a result and a flag leaves every register but the two. -/
theorem State.readV_writeResultFlag_of_ne (s : State) {x z : Reg} (w : Byte) (f : Bool)
    (h : (z == x || z == 15) = false) : (s.writeResultFlag x w f).readV z = s.readV z := by
  obtain ⟨hzx, hz⟩ : z ≠ x ∧ z ≠ 15 := by simpa using h
  rw [State.readV_writeResultFlag, if_neg fun e => hz e.1.symm, if_neg hzx.symm]

/-- A completed instruction leaves every register that rule R21 does not name for it. -/
theorem readV_completed {i : Instr} {s : State} {z : Reg} (h : writesReg i s z = false) :
    (completed i s).readV z = s.readV z := by
  cases i with
  | op6XNN _ _ | op7XNN _ _ | op8XY0 _ _ | op8XY1 _ _ | op8XY2 _ _ | op8XY3 _ _ | opCXNN _ _ | opFX07 _
  | opDXYN _ _ _ | opFX1E _ => exact State.readV_writeV_of_ne _ _ h
  | op8XY4 _ _ | op8XY5 _ _ | op8XY6 _ _ | op8XY7 _ _ | op8XYE _ _ =>
    exact s.readV_writeResultFlag_of_ne _ _ h
  | opFX65 x =>
    have hlt : ¬ z.val ≤ x.val := of_decide_eq_false h
    exact (s.getElem_loadedRegs x z).trans (if_neg hlt)
  | opFX0A x =>
    simp only [completed]
    cases hk : s.selectKey with
    | none => rfl
    | some k => exact State.readV_writeV_of_ne s _ (by simpa [writesReg, State.keys_ne_zero_of_selectKey hk] using h)
  | _ => rfl

/-- Settles O15: a fault writes no register, and a completed instruction those of its row of R21. -/
theorem onlyDestinationRegistersChange : Obligations.OnlyDestinationRegistersChange := by
  intro i s t z h hz
  obtain ⟨f, -, rfl⟩ | ⟨-, rfl⟩ := exec_cases h
  · rfl
  · exact readV_completed hz

/-! ### The other resources

FX65 has a line of its own: its registers would be computed in vain where a field of `completed` is compared by `rfl`. -/

/-- A completed instruction writes memory as one block at `I` of the bytes the table counts, inside the memory. -/
theorem mem_completed {i : Instr} {s : State} (h : faultOf i s = none) :
    ∃ ws : List Byte, ws.length = storedBytes i ∧ (ws = [] ∨ s.i.toNat + ws.length ≤ 4096) ∧
      (completed i s).mem = s.mem.writeBytes s.i.toNat ws := by
  cases i with
  | opFX33 x =>
    have hin : ¬4096 ≤ s.i.toNat + 2 := fun e => by simp [faultOf, e] at h
    exact ⟨bcdDigits (s.readV x), rfl, .inr (by simp only [bcdDigits, List.length_cons, List.length_nil]; omega), rfl⟩
  | opFX55 x =>
    have hin : ¬4096 ≤ s.i.toNat + x.val := fun e => by simp [faultOf, e] at h
    exact ⟨s.regsUpTo x, s.length_regsUpTo x, .inr (by rw [s.length_regsUpTo]; omega), rfl⟩
  | opFX65 _ => exact ⟨[], rfl, .inl rfl, by rw [completed, State.advance_mem, Memory.writeBytes]⟩
  | _ => exact ⟨[], rfl, .inl rfl, rfl⟩

/-- A completed instruction keeps the canonical form of memory. -/
theorem mem_wf_completed {i : Instr} {s : State} (h : faultOf i s = none) (hm : s.mem.wf = true) :
    (completed i s).mem.wf = true := by
  obtain ⟨ws, -, -, hws⟩ := mem_completed h
  exact hws ▸ Memory.writeBytes_wf hm _ ws

/-- A completed instruction leaves every byte outside the block it stores. -/
theorem read_mem_completed {i : Instr} {s : State} (h : faultOf i s = none) (hm : s.mem.wf = true) {a : Nat}
    (ha : ¬(s.i.toNat ≤ a ∧ a < s.i.toNat + storedBytes i)) : (completed i s).mem.read a = s.mem.read a := by
  obtain ⟨ws, hlen, hin, hws⟩ := mem_completed h
  rw [hws]
  obtain rfl | hin := hin
  · rfl
  · rw [Memory.read_writeBytes hm hin, if_neg (by rwa [hlen])]

/-- A completed instruction that rule R23 does not name leaves `I`. -/
theorem i_completed {i : Instr} {s : State} (h : writesIndex i = false) : (completed i s).i = s.i := by
  cases i with
  | opANNN _ | opFX1E _ | opFX29 _ | opFX55 _ | opFX65 _ => cases h
  | _ => rfl

/-- A completed instruction other than 00E0 and DXYN leaves the display and `changed` (R32, R176). -/
theorem display_completed {i : Instr} {s : State} (h : writesDisplay i = false) :
    (completed i s).fb = s.fb ∧ (completed i s).changed = s.changed := by
  cases i with
  | op00E0 | opDXYN _ _ _ => cases h
  | opFX65 _ => rw [completed, State.advance_fb, State.advance_changed]; exact ⟨rfl, rfl⟩
  | _ => exact ⟨rfl, rfl⟩

/-- A completed instruction other than 00EE and 2NNN leaves SP (R29). -/
theorem sp_completed {i : Instr} {s : State} (h : movesStack i = false) : (completed i s).sp = s.sp := by
  cases i with
  | op00EE | op2NNN _ => cases h
  | opFX65 _ => rw [completed, State.advance_sp]
  | _ => rfl

/-- A completed instruction other than 2NNN leaves the stack entries (R28). -/
theorem stk_completed {i : Instr} {s : State} (h : ∀ nnn, i ≠ .op2NNN nnn) : (completed i s).stk = s.stk := by
  cases i with
  | op2NNN nnn => exact absurd rfl (h nnn)
  | opFX65 _ => rw [completed, State.advance_stk]
  | _ => rfl

/-- A completed instruction other than FX15 leaves DT (R30). -/
theorem dt_completed {i : Instr} {s : State} (h : ∀ x, i ≠ .opFX15 x) : (completed i s).dt = s.dt := by
  cases i with
  | opFX15 x => exact absurd rfl (h x)
  | opFX65 _ => rw [completed, State.advance_dt]
  | _ => rfl

/-- A completed instruction other than FX18 leaves ST (R30). -/
theorem st_completed {i : Instr} {s : State} (h : ∀ x, i ≠ .opFX18 x) : (completed i s).st = s.st := by
  cases i with
  | opFX18 x => exact absurd rfl (h x)
  | opFX65 _ => rw [completed, State.advance_st]
  | _ => rfl

/-- A completed instruction draws a free value only as CXNN or, with `KEY_SELECT = any`, as FX0A (R153, R183). -/
theorem freeIdx_completed {i : Instr} {s : State} (hrnd : ∀ x nn, i ≠ .opCXNN x nn)
    (hkey : s.keySelect = .lowest ∨ ∀ x, i ≠ .opFX0A x) : (completed i s).freeIdx = s.freeIdx := by
  cases i with
  | opCXNN x nn => exact absurd rfl (hrnd x nn)
  | opFX0A x =>
    have hlow : s.keySelect = .lowest := hkey.resolve_right fun h => h x rfl
    simp only [completed, State.countKeyChoice_freeIdx, hlow]
    cases s.selectKey <;> rfl
  | opFX65 _ => rw [completed, State.advance_freeIdx]
  | _ => rfl

/-- Settles O16: a fault changes no resource, and a completed instruction those of its tables. -/
theorem onlyNamedInstructionsWriteEachResource : Obligations.OnlyNamedInstructionsWriteEachResource := by
  intro i s t h
  obtain ⟨f, -, rfl⟩ | ⟨hf, rfl⟩ := exec_cases h
  · exact ⟨fun _ => rfl, fun _ _ _ => rfl, fun _ => ⟨rfl, rfl⟩, fun _ => rfl, fun _ => rfl, fun _ => rfl, fun _ => rfl,
      fun _ _ => rfl⟩
  · exact ⟨i_completed, fun hm _ ha => read_mem_completed hf hm ha, display_completed, sp_completed, stk_completed,
      dt_completed, st_completed, freeIdx_completed⟩

/-! ### Faults (R205, R206) -/

/-- The address of the instruction that a fault record holds (R200). -/
def Fault.pc : Fault → Word
  | .outOfBounds _ pc | .unknownOpcode _ pc | .invalidStackOperation _ pc | .invalidKeyIndex _ pc => pc

/-- A fault the table names holds the address of its instruction. -/
theorem pc_of_faultOf {i : Instr} {s : State} {f : Fault} (h : faultOf i s = some f) : f.pc = s.pc := by
  cases i with
  | op00EE | op2NNN _ | opEX9E _ | opEXA1 _ | opDXYN _ _ _ | opFX33 _ | opFX55 _ | opFX65 _ =>
    simp only [faultOf] at h
    split at h <;> cases h
    rfl
  | _ => cases h

/-- What a cycle of an unfaulted machine that answers a state did: it took a fault at its `pc` and ended there, or it
completed an instruction, counted the timers and gave the strobes. -/
theorem cycle_faults_or_completes {s t : State} (hs : s.fault = none) (h : cycle s = .next t) :
    (∃ f, f.pc = s.pc ∧ t = s.takeFault f) ∨
      (s.pc.toNat < 4095 ∧ ∃ i, faultOf i s = none ∧ s.Undisturbed (completed i s) ∧
        t = (completed i s).tickTimers.notify) := by
  obtain ⟨f, hf, rfl⟩ | ⟨op, -, -, rfl⟩ | ⟨op, i, u, hop, -, hu, rfl⟩ := cycle_cases h
  · obtain ⟨-, rfl⟩ := State.fetch_eq_error hf
    exact .inl ⟨_, rfl, rfl⟩
  · exact .inl ⟨_, rfl, rfl⟩
  · obtain ⟨f, hf, rfl⟩ | ⟨hf, rfl⟩ := exec_cases hu
    · exact .inl ⟨f, pc_of_faultOf hf, State.finishCycle_of_fault rfl⟩
    · have hundisturbed := exec_undisturbed hu hf
      exact .inr ⟨(State.fetch_eq_ok.mp hop).1, i, hf, hundisturbed,
        State.finishCycle_of_no_fault (hundisturbed.fault.trans hs)⟩

/-- Settles O11: a cycle that completes leaves no fault, so the fault was taken on the state the boundary left. -/
theorem faultingCyclesArePrecise : Obligations.FaultingCyclesArePrecise := by
  intro s t hen h hfault
  obtain ⟨-, -, -, -, hs⟩ := State.cycleEnabled_iff.mp hen
  rw [step_of_cycleEnabled hen] at h
  obtain ⟨f, hpc, rfl⟩ | ⟨-, i, -, hu, rfl⟩ := cycle_faults_or_completes hs h
  · refine ⟨rfl, s.strobes_hostPhase, ?_⟩
    rw [← hpc]
    cases f with
    | outOfBounds a pc => exact .inl ⟨a, rfl⟩
    | unknownOpcode op pc => exact .inr (.inl ⟨op, rfl⟩)
    | invalidStackOperation k pc => exact .inr (.inr (.inl ⟨k, rfl⟩))
    | invalidKeyIndex x pc => exact .inr (.inr (.inr ⟨x, rfl⟩))
  · exact absurd (hu.fault.trans hs) hfault

/-! ### The invariant of the machine -/

/-- Settles O22: the reset state at the default arguments. -/
theorem resetMeetsTheInvariant : Obligations.ResetMeetsTheInvariant := State.inv_reset _ _ _

/-- The invariant does not see what the host alone writes: keys, `paused`, `reset_pending`, image, delay and ports. -/
theorem State.Inv.setHost {s : State} (h : s.Inv) (keys : BitVec 16) (paused resetPending : Bool)
    (rom : Option (List Byte)) (delay : Nat) (inputs : List (List HostCmd)) (strobes : List Strobe)
    (answers : List HostAnswer) :
    ({ s with
        keys := keys, paused := paused, resetPending := resetPending, rom := rom, cycleDelayMs := delay,
        inputs := inputs, strobes := strobes, answers := answers } : State).Inv :=
  ⟨h.mem_wf, h.changed_clear, h.fault_stops, h.running_initialized, h.pc_bound, h.stk_bound⟩

/-- A fault keeps the invariant: it stops the machine and changes no contents (R206). -/
theorem State.Inv.takeFault {s : State} (h : s.Inv) (f : Fault) : (s.takeFault f).Inv :=
  ⟨h.mem_wf, h.changed_clear, fun _ => rfl, nofun, h.pc_bound, h.stk_bound⟩

/-- A stopped machine that is not initialised meets the invariant when its memory is canonical. -/
theorem State.inv_of_uninitialized {s : State} (hm : s.mem.wf = true) (hr : s.running = false)
    (hi : s.initialized = false) : s.Inv where
  mem_wf := hm
  changed_clear h := by simp [hi] at h
  fault_stops _ := hr
  running_initialized h := by simp [hr] at h
  pc_bound h := by simp [hi] at h
  stk_bound h := by simp [hi] at h

/-- A successful reset gives a state that meets the invariant, whatever the state before (R240). -/
theorem State.inv_resetWith (s : State) (rom : List Byte) : (s.resetWith rom).Inv where
  mem_wf := Memory.writeBytes_wf (Memory.wf_font _) _ rom
  changed_clear _ := rfl
  fault_stops h := nomatch h
  running_initialized _ := rfl
  pc_bound _ := (by decide : (0x0200#16).toNat ≤ 0x10FE)
  stk_bound _ k := by simp [State.resetWith]

/-- A refused reset of a stopped machine leaves it uninitialised, its memory canonical (R242). -/
theorem State.inv_refuseReset {s : State} (why : ResetRefusal) (hr : s.running = false) : (s.refuseReset why).Inv :=
  State.inv_of_uninitialized (Memory.ofCells_wf _ _) hr rfl

/-- A reset of a stopped machine gives a state that meets the invariant. -/
theorem State.inv_performReset {s : State} (hr : s.running = false) : s.performReset.Inv := by
  obtain ⟨rom, -, h⟩ | ⟨why, -, h⟩ := s.performReset_cases <;> rw [h]
  · exact s.inv_resetWith rom
  · exact State.inv_refuseReset why hr

/-- A reset of `run` or the run loop gives a state that meets the invariant: its refusal stops the machine (R228, R229). -/
theorem State.inv_performLoopReset (s : State) : s.performLoopReset.Inv := by
  unfold State.performLoopReset
  obtain ⟨rom, -, h⟩ | ⟨why, -, h⟩ := s.performReset_cases <;> rw [h]
  · have hrun : (s.resetWith rom).running = ((s.resetWith rom).running && (s.resetWith rom).initialized) :=
      (Bool.and_true _).symm
    exact hrun ▸ s.inv_resetWith rom
  · exact State.inv_of_uninitialized (Memory.ofCells_wf _ _) (Bool.and_false _) rfl

/-- A deferred reset gives a state that meets the invariant. -/
theorem State.inv_honourReset (s : State) : s.honourReset.Inv :=
  (State.inv_performLoopReset { s with initialized := false }).setHost _ _ _ _ _ _ _ _

/-- Every command of the host keeps the invariant. -/
theorem State.Inv.hostDo {s : State} (h : s.Inv) (c : HostCmd) : (s.hostDo c).Inv := by
  cases c with
  | init =>
    simp only [State.hostDo]
    split
    · exact h
    · next hi => exact State.inv_performReset (Bool.eq_false_iff.mpr (mt h.running_initialized hi))
  | run =>
    simp only [State.hostDo]
    split
    · exact h
    · next hstop =>
      split
      · next hi =>
        have hf : s.fault.isSome = false := (Bool.or_eq_false_iff.mp (Bool.eq_false_iff.mpr hstop)).2
        exact ⟨h.mem_wf, h.changed_clear, fun hsome => absurd (hf.symm.trans hsome) Bool.false_ne_true, fun _ => hi,
          h.pc_bound, h.stk_bound⟩
      · exact State.inv_performLoopReset _
  | reset =>
    simp only [State.hostDo]
    split
    · exact h.setHost _ _ _ _ _ _ _ _
    · next hr => exact State.inv_performReset (Bool.eq_false_iff.mpr hr)
  | stop => exact State.inv_of_uninitialized h.mem_wf rfl rfl
  | setCycleSpeedHz hz => simp only [State.hostDo]; split <;> exact h.setHost _ _ _ _ _ _ _ _
  | _ => exact h.setHost _ _ _ _ _ _ _ _

/-- Every boundary keeps the invariant. -/
theorem State.Inv.hostPhase {s : State} (h : s.Inv) : s.hostPhase.Inv :=
  State.hostPhase_induction (h.setHost _ _ _ _ _ _ _ _) fun _ c hu => hu.hostDo c

/-- The next `pc` after an instruction fetched inside the memory is at most 0x10FE, which BNNN reaches (R27). -/
theorem nextPc_le {s : State} (i : Instr) (hpc : s.pc.toNat < 4095)
    (hstk : ∀ k : Fin 16, s.stk[k.val].toNat ≤ 0x0FFE) : nextPc i s ≤ 0x10FE := by
  cases i with
  | op1NNN nnn | op2NNN nnn => have := nnn.isLt; simp only [nextPc]; omega
  | opBNNN nnn => have := nnn.isLt; have := (s.readV 0).isLt; simp only [nextPc]; omega
  | op00EE =>
    simp only [nextPc]
    split
    · have := hstk ⟨s.sp.val - 1, by omega⟩
      simp only at this
      omega
    · simp
  | op3XNN _ _ | op4XNN _ _ | op5XY0 _ _ | op9XY0 _ _ | opEX9E _ | opEXA1 _ | opFX0A _ =>
    simp only [nextPc]; split <;> omega
  | _ => simp only [nextPc]; omega

/-- Every stack entry after a completed instruction is one from before or the address of the instruction (R28). -/
theorem getElem_stk_completed (i : Instr) (s : State) (k : Fin 16) :
    (completed i s).stk[k.val] = s.stk[k.val] ∨ (completed i s).stk[k.val] = s.pc := by
  by_cases h : ∃ nnn, i = .op2NNN nnn
  · obtain ⟨nnn, rfl⟩ := h
    simp only [completed]
    split
    · rw [Vector.getElem_set]
      split
      · exact .inr rfl
      · exact .inl rfl
    · exact .inl rfl
  · rw [stk_completed fun nnn e => h ⟨nnn, e⟩]
    exact .inl rfl

/-- A cycle keeps the invariant. -/
theorem State.Inv.cycle {s t : State} (h : s.Inv) (hen : s.cycleEnabled = true) (ht : cycle s = .next t) : t.Inv := by
  obtain ⟨hinit, -, -, -, hs⟩ := State.cycleEnabled_iff.mp hen
  obtain ⟨f, -, rfl⟩ | ⟨hpc, i, hf, hu, rfl⟩ := cycle_faults_or_completes hs ht
  · exact h.takeFault f
  · have hfault : (completed i s).fault = none := hu.fault.trans hs
    have hhost : (completed i s).initialized = true := (congrArg HostPart.initialized hu.hostPart).trans hinit
    have hstk := h.stk_bound hinit
    exact {
      mem_wf := mem_wf_completed hf h.mem_wf
      changed_clear := fun _ => rfl
      fault_stops := fun hsome => by simp [hfault] at hsome
      running_initialized := fun _ => hhost
      pc_bound := fun _ => (toNat_pc_completed i s).trans_le (nextPc_le i hpc hstk)
      stk_bound := fun _ k => by
        obtain hk | hk := getElem_stk_completed i s k
        · exact (congrArg BitVec.toNat hk).trans_le (hstk k)
        · exact (congrArg BitVec.toNat hk).trans_le (by omega) }

/-- Settles O21: every command, a deferred reset and a cycle keep the invariant, and nothing else changes the state. -/
theorem stepKeepsTheInvariant : Obligations.StepKeepsTheInvariant := by
  intro s t h ht
  obtain ⟨-, rfl⟩ | ⟨hen, hc⟩ | ⟨-, -, rfl⟩ := step_cases ht
  · exact State.inv_honourReset _
  · exact h.hostPhase.cycle hen hc
  · exact h.hostPhase

/-! ### Reset and the key port -/

/-- Every byte of memory after a reset: the image from 0x200, the font below 0x050, else 0x00 (R41, R57 to R59). -/
theorem Memory.read_afterReset (font : Config.FontTable) {rom : List Byte} (hlen : rom.length ≤ 3584) (a : Nat) :
    (Memory.afterReset font rom).read a =
      if 0x200 ≤ a ∧ a < 0x200 + rom.length then rom.getD (a - 0x200) 0#8
      else if h : a < 80 then font[a] else 0#8 :=
  Memory.read_writeBytes (Memory.wf_font font) (by simp only [Config.romBase]; omega) a

/-- Settles O51: a good image makes the reset `resetWith`, which gives every item of R41 its value. -/
theorem resetLoadsFontAndImage : Obligations.ResetLoadsFontAndImage := by
  refine ⟨fun s rom hrom h1 h2 => ?_, fun _ _ _ => ⟨rfl, rfl⟩⟩
  rw [State.performReset_of_image hrom h1 h2]
  have zeroV (x : Reg) : (s.resetWith rom).readV x = 0#8 := Vector.getElem_replicate _
  have zeroStk (k : Fin 16) : (s.resetWith rom).stk[k.val] = 0#16 := Vector.getElem_replicate _
  exact ⟨zeroV, rfl, rfl, rfl, zeroStk, rfl, rfl, fun a b => pixelAt_blank a.val b.val, rfl, rfl, rfl, rfl, rfl, rfl, rfl,
    fun a _ => Memory.read_afterReset s.mem.font h2 a⟩

/-- The mask of key `k` holds that key alone. -/
theorem getLsbD_keyMask (k j : Fin 16) : (BitVec.twoPow 16 k.val).getLsbD j.val = decide (j = k) := by
  rw [BitVec.getLsbD_twoPow, decide_eq_true k.isLt, Bool.true_and, decide_eq_decide, Fin.ext_iff, eq_comm]

/-- Settles O57: `pressKey` sets and `releaseKey` clears the one bit of the key word that stands for the key. -/
theorem keyPortWritesOneKey : Obligations.KeyPortWritesOneKey := by
  intro s k j
  refine ⟨?_, ?_, rfl, rfl⟩
  · simp only [State.hostDo, State.keyDown, BitVec.getLsbD_or, getLsbD_keyMask]
    by_cases h : j = k <;> simp [h]
  · simp only [State.hostDo, State.keyDown, BitVec.getLsbD_and, BitVec.getLsbD_not, getLsbD_keyMask, j.isLt]
    by_cases h : j = k <;> simp [h]

end Sys2Proof.Machine

/-! The statements about memory: the bounds check, the fetch, stored bytes read back, the fault of DXYN, and the reset that
is refused. -/

namespace Sys2Proof.Machine

/-! ### The bounds check and the fetch (R52, R55, R62) -/

/-- Settles O25: the block ends by 4096 exactly when its addresses do, and the lowest bad one is `base` or 4096. -/
theorem boundsCheckReportsTheLowestAddress : Obligations.BoundsCheckReportsTheLowestAddress := by
  refine fun base count => ⟨?_, fun a ha => ?_⟩
  · rw [blockFault?_eq_none]
    refine ⟨fun h k hk => by omega, fun h => ?_⟩
    by_contra hout
    have last := h (count - 1) (by omega)
    omega
  · obtain ⟨hpos, hout, rfl⟩ := blockFault?_eq_some.mp ha
    exact ⟨le_max_right _ _, ⟨max base 4096 - base, by omega, by omega⟩, fun k _ hk => max_le (Nat.le_add_right _ _) hk⟩

/-- A fetch with a byte outside the memory faults at the first byte that does not exist. -/
theorem State.fetch_of_outside {s : State} (h : 4095 ≤ s.pc.toNat) :
    s.fetch = .error (.outOfBounds (max s.pc.toNat 4096) s.pc) := by
  cases hf : s.fetch with
  | error f => rw [(State.fetch_eq_error hf).2]
  | ok op => exact absurd (State.fetch_eq_ok.mp hf).1 (Nat.not_lt.mpr h)

/-- Settles O8: the fetch faults from 4095 on, and below reads the two bytes. -/
theorem fetchReadsTwoBytesOrFaults : Obligations.FetchReadsTwoBytesOrFaults := by
  refine fun s => ⟨fun h => ?_, fun h => ?_, fun h => ⟨_, State.fetch_eq_ok.mpr ⟨h, rfl⟩, toNat_joinBytes _ _⟩⟩
  · rw [State.fetch_of_outside (by omega), max_eq_left h]
  · rw [State.fetch_of_outside h.ge, max_eq_right (by omega)]

/-! ### Stored registers (R63, R64, R165, R166) -/

/-- FX55 and FX65 execute with their block inside the memory. -/
theorem faultOf_registerBlock {s : State} {x : Reg} (h : s.i.toNat + x.val < 4096) :
    faultOf (.opFX55 x) s = none ∧ faultOf (.opFX65 x) s = none :=
  ⟨if_neg (Nat.not_le.mpr h), if_neg (Nat.not_le.mpr h)⟩

/-- After FX55 byte `k` of its block is `V[k]` (R165). -/
theorem read_mem_completed_opFX55 {s : State} {x : Reg} (hm : s.mem.wf = true) (hin : s.i.toNat + x.val < 4096) {k : Reg}
    (hk : k.val ≤ x.val) : (completed (.opFX55 x) s).mem.read (s.i.toNat + k.val) = s.readV k := by
  have hlen := s.length_regsUpTo x
  have hmem : (completed (.opFX55 x) s).mem = s.mem.writeBytes s.i.toNat (s.regsUpTo x) := rfl
  rw [hmem, Memory.read_writeBytes hm (by omega), if_pos (by omega), Nat.add_sub_cancel_left, s.getD_regsUpTo x k hk]

/-- After FX65 `V[k]`, for `k` up to `X`, is byte `k` of its block (R166). -/
theorem readV_completed_opFX65 (s : State) {x k : Reg} (hk : k.val ≤ x.val) :
    (completed (.opFX65 x) s).readV k = s.mem.read (s.i.toNat + k.val) :=
  (s.getElem_loadedRegs x k).trans (if_pos hk)

/-- Settles O20: the `pc` behind FX55 points at byte `k` of the block just stored. -/
theorem storedBytesAreFetched : Obligations.StoredBytesAreFetched := by
  intro s x k hkx hm hin hpc
  have hnext : (completed (.opFX55 x) s).pc.toNat = s.i.toNat + k.val := calc
    _ = (s.pc.toNat + 2) % 65536 := toNat_pc_completed _ s
    _ = s.i.toNat + k.val := by omega
  refine ⟨_, exec_of_no_fault (faultOf_registerBlock hin).1, State.fetch_eq_ok.mpr ⟨by omega, ?_⟩⟩
  rw [hnext, read_mem_completed_opFX55 hm hin (by omega), Nat.add_assoc]
  exact congrArg _ (read_mem_completed_opFX55 (k := ⟨k.val + 1, by omega⟩) hm hin hkx).symm

/-- Settles O42: FX65 loads from the addresses at which FX55 stored. -/
theorem storedRegistersLoadBack : Obligations.StoredRegistersLoadBack := by
  intro x s hm hin
  have hin' : s.i.toNat + x.val < 4096 := by omega
  refine ⟨_, exec_of_no_fault (faultOf_registerBlock hin').1, fun u hmem hi => ?_⟩
  refine ⟨_, exec_of_no_fault (faultOf_registerBlock (hi ▸ hin')).2, fun k hk => ?_⟩
  rw [readV_completed_opFX65 u hk, hmem, hi]
  exact read_mem_completed_opFX55 hm hin' hk

/-! ### DXYN outside the memory -/

/-- Settles O45: the row of DXYN in the table of faults. -/
theorem drawOutsideMemoryFaults : Obligations.DrawOutsideMemoryFaults :=
  fun _ _ _ _ hn hout => exec_of_fault (if_pos ⟨hn, hout⟩)

/-! ### Refused resets (R242) -/

/-- An image above 3584 bytes is refused with its length. -/
theorem refusalOf_of_long {rom : List Byte} (h : 3584 < rom.length) :
    refusalOf (some rom) = some (.capacityExceeded rom.length) := by
  rw [refusalOf, if_neg (by omega), if_pos h]

/-- The answer of a refused reset comes after the answers given before. -/
theorem State.answers_performReset_of_refused {s : State} {why : ResetRefusal} (h : refusalOf s.rom = some why) :
    s.performReset.answers = s.answers ++ [.resetRefused why] := by
  rw [State.performReset_of_refused h, State.refuseReset]

/-- Settles O52: each of the three images has its refusal, and a refused reset keeps the flags it is to keep. -/
theorem resetIsRefusedWithoutAGoodImage : Obligations.ResetIsRefusedWithoutAGoodImage := by
  intro s
  have hnone (h : s.rom = none) : refusalOf s.rom = some .noRomLoaded := h ▸ rfl
  have hempty (h : s.rom = some []) : refusalOf s.rom = some .invalidState := h ▸ rfl
  have hlong {rom : List Byte} (h : s.rom = some rom) (hlen : 3584 < rom.length) :
      refusalOf s.rom = some (.capacityExceeded rom.length) := h ▸ refusalOf_of_long hlen
  refine ⟨fun h => State.answers_performReset_of_refused (hnone h),
    fun h => State.answers_performReset_of_refused (hempty h),
    fun _ h hlen => State.answers_performReset_of_refused (hlong h hlen), fun h => ?_⟩
  obtain ⟨why, hwhy⟩ : ∃ why, refusalOf s.rom = some why := by
    obtain h | h | ⟨rom, h, hlen⟩ := h
    · exact ⟨_, hnone h⟩
    · exact ⟨_, hempty h⟩
    · exact ⟨_, hlong h hlen⟩
  rw [State.performReset_of_refused hwhy]
  exact ⟨rfl, rfl, rfl, rfl, rfl, rfl⟩

end Sys2Proof.Machine

/-! The statements about the encoding: decoding and encoding are inverse, the opcode map describes the decoder, and what a
cycle does with a word that is no instruction. -/

namespace Sys2Proof

/-! ### Decoding an encoded instruction (R82, R84, R86) -/

/-- Each word of R82's formats has the class digit and the fields the decoder dispatches on. -/
theorem decodeWord_encode (i : Instr) : decodeWord (encode i) = some i := by
  cases i with
  | op00E0 | op00EE => rfl
  | op1NNN _ | op2NNN _ | op3XNN _ _ | op4XNN _ _ | op6XNN _ _ | op7XNN _ _ | opANNN _ | opBNNN _ | opCXNN _ _
  | opDXYN _ _ _ => simp [encode, decodeWord, -toNat_fieldClass]
  | op5XY0 _ _ | op9XY0 _ _ => simp [encode, decodeWord, decodeRegPair, -toNat_fieldClass]
  | op8XY0 _ _ | op8XY1 _ _ | op8XY2 _ _ | op8XY3 _ _ | op8XY4 _ _ | op8XY5 _ _ | op8XY6 _ _ | op8XY7 _ _
  | op8XYE _ _ => simp [encode, decodeWord, decodeClass8, -toNat_fieldClass, -val_fieldN]
  | opEX9E _ | opEXA1 _ => simp [encode, decodeWord, decodeClassE, -toNat_fieldClass, -toNat_fieldNN]
  | opFX07 _ | opFX0A _ | opFX15 _ | opFX18 _ | opFX1E _ | opFX29 _ | opFX33 _ | opFX55 _ | opFX65 _ =>
    simp [encode, decodeWord, decodeClassF, -toNat_fieldClass, -toNat_fieldNN]

/-- The two bytes of a word that decodes decode to the same instruction (R52, R80). -/
theorem decode_bytes_of_decodeWord {op : Word} {i : Instr} (h : decodeWord op = some i) (rest : List Byte) :
    decode (highByte op :: lowByte op :: rest) = .ok (i, rest) := by
  simp only [decode, Machine.joinBytes_split, h]

/-- Settles O1: `decodeWord_encode`, and the two bytes join to the opcode word. -/
theorem decodeOfEncodeIsTheInstruction : Obligations.DecodeOfEncodeIsTheInstruction :=
  fun i _ => ⟨decodeWord_encode i, decode_bytes_of_decodeWord (decodeWord_encode i)⟩

/-! ### Encoding a decoded word -/

/-- A word of a known class is that class digit and its address. -/
theorem wordNNN_of_class {op : Word} {k : Nat} (hc : (fieldClass op).toNat = k) :
    wordNNN (BitVec.ofNat 4 k) (fieldNNN op) = op := by
  rw [← hc, BitVec.ofNat_toNat, BitVec.setWidth_eq, wordNNN_fields]

theorem wordXNN_of_class {op : Word} {k : Nat} (hc : (fieldClass op).toNat = k) :
    wordXNN (BitVec.ofNat 4 k) (fieldX op) (fieldNN op) = op := by
  rw [← hc, BitVec.ofNat_toNat, BitVec.setWidth_eq, wordXNN_fields]

theorem wordXYN_of_class {op : Word} {k : Nat} (hc : (fieldClass op).toNat = k) :
    wordXYN (BitVec.ofNat 4 k) (fieldX op) (fieldY op) (fieldN op) = op := by
  rw [← hc, BitVec.ofNat_toNat, BitVec.setWidth_eq, wordXYN_fields]

/-- A word of known class and low byte is made of them and its field `X`. -/
theorem wordXNN_of_subop {op : Word} {k m : Nat} (hc : (fieldClass op).toNat = k) (hm : (fieldNN op).toNat = m) :
    wordXNN (BitVec.ofNat 4 k) (fieldX op) (BitVec.ofNat 8 m) = op := by
  rw [← hm, BitVec.ofNat_toNat, BitVec.setWidth_eq, wordXNN_of_class hc]

/-- A word of known class and last digit is made of them and its fields `X` and `Y`. -/
theorem wordXYN_of_subop {op : Word} {k m : Nat} (hc : (fieldClass op).toNat = k) (hm : (fieldN op).val = m) :
    wordXYN (BitVec.ofNat 4 k) (fieldX op) (fieldY op) (Fin.ofNat 16 m) = op := by
  rw [← hm, Fin.ofNat_val_eq_self, wordXYN_of_class hc]

theorem encode_of_decodeClass0 {op : Word} {i : Instr} (h : decodeClass0 op = some i) : encode i = op := by
  simp only [decodeClass0] at h
  split at h
  · next h0 => cases h; exact h0.symm
  · split at h <;> cases h
    next hE => exact hE.symm

theorem encode_of_decodeClass8 {op : Word} {i : Instr} (hc : (fieldClass op).toNat = 8)
    (h : decodeClass8 op = some i) : encode i = op := by
  simp only [decodeClass8] at h
  split at h <;> cases h <;> exact wordXYN_of_subop hc ‹_›

theorem encode_of_decodeClassE {op : Word} {i : Instr} (hc : (fieldClass op).toNat = 14)
    (h : decodeClassE op = some i) : encode i = op := by
  simp only [decodeClassE] at h
  split at h <;> cases h <;> exact wordXNN_of_subop hc ‹_›

theorem encode_of_decodeClassF {op : Word} {i : Instr} (hc : (fieldClass op).toNat = 15)
    (h : decodeClassF op = some i) : encode i = op := by
  simp only [decodeClassF] at h
  split at h <;> cases h <;> exact wordXNN_of_subop hc ‹_›

/-- Classes 5 and 9, whose instruction encodes with the last digit 0. -/
theorem encode_of_decodeRegPair {op : Word} {i : Instr} {k : Nat} {build : Reg → Reg → Instr}
    (hc : (fieldClass op).toNat = k) (hb : ∀ x y, encode (build x y) = wordXYN (BitVec.ofNat 4 k) x y 0)
    (h : decodeRegPair op build = some i) : encode i = op := by
  simp only [decodeRegPair] at h
  split at h <;> cases h
  next h0 => rw [hb, ← h0, wordXYN_of_class hc]

/-- The decoder drops no bit of a word it decodes: by class digit, alternative `h_(k + 1)` of the dispatch being class
`k`. -/
theorem encode_of_decodeWord {op : Word} {i : Instr} (h : decodeWord op = some i) : encode i = op := by
  simp only [decodeWord] at h
  split at h
  case h_17 => cases h
  case h_1 => exact encode_of_decodeClass0 h
  case h_6 hc | h_10 hc => exact encode_of_decodeRegPair hc (fun _ _ => rfl) h
  case h_9 hc => exact encode_of_decodeClass8 hc h
  case h_15 hc => exact encode_of_decodeClassE hc h
  case h_16 hc => exact encode_of_decodeClassF hc h
  case h_2 hc | h_3 hc | h_11 hc | h_12 hc => cases h; exact wordNNN_of_class hc
  case h_4 hc | h_5 hc | h_7 hc | h_8 hc | h_13 hc => cases h; exact wordXNN_of_class hc
  case h_14 hc => cases h; exact wordXYN_of_class hc

/-- Settles O2: `encode_of_decodeWord`. -/
theorem encodeOfDecodeIsTheWord : Obligations.EncodeOfDecodeIsTheWord :=
  fun _ _ => encode_of_decodeWord

/-! ### The rows of the opcode map (R84, R85) -/

/-- The family `Encoding` has a lemma for every instruction. -/
theorem encoding_statement : ∀ i : Instr, Laws.Encoding.Statement i
  | .op00E0 => Laws.Encoding.op00E0
  | .op00EE => Laws.Encoding.op00EE
  | .op1NNN nnn => Laws.Encoding.op1NNN nnn
  | .op2NNN nnn => Laws.Encoding.op2NNN nnn
  | .op3XNN x nn => Laws.Encoding.op3XNN x nn
  | .op4XNN x nn => Laws.Encoding.op4XNN x nn
  | .op5XY0 x y => Laws.Encoding.op5XY0 x y
  | .op6XNN x nn => Laws.Encoding.op6XNN x nn
  | .op7XNN x nn => Laws.Encoding.op7XNN x nn
  | .op8XY0 x y => Laws.Encoding.op8XY0 x y
  | .op8XY1 x y => Laws.Encoding.op8XY1 x y
  | .op8XY2 x y => Laws.Encoding.op8XY2 x y
  | .op8XY3 x y => Laws.Encoding.op8XY3 x y
  | .op8XY4 x y => Laws.Encoding.op8XY4 x y
  | .op8XY5 x y => Laws.Encoding.op8XY5 x y
  | .op8XY6 x y => Laws.Encoding.op8XY6 x y
  | .op8XY7 x y => Laws.Encoding.op8XY7 x y
  | .op8XYE x y => Laws.Encoding.op8XYE x y
  | .op9XY0 x y => Laws.Encoding.op9XY0 x y
  | .opANNN nnn => Laws.Encoding.opANNN nnn
  | .opBNNN nnn => Laws.Encoding.opBNNN nnn
  | .opCXNN x nn => Laws.Encoding.opCXNN x nn
  | .opDXYN x y n => Laws.Encoding.opDXYN x y n
  | .opEX9E x => Laws.Encoding.opEX9E x
  | .opEXA1 x => Laws.Encoding.opEXA1 x
  | .opFX07 x => Laws.Encoding.opFX07 x
  | .opFX0A x => Laws.Encoding.opFX0A x
  | .opFX15 x => Laws.Encoding.opFX15 x
  | .opFX18 x => Laws.Encoding.opFX18 x
  | .opFX1E x => Laws.Encoding.opFX1E x
  | .opFX29 x => Laws.Encoding.opFX29 x
  | .opFX33 x => Laws.Encoding.opFX33 x
  | .opFX55 x => Laws.Encoding.opFX55 x
  | .opFX65 x => Laws.Encoding.opFX65 x

theorem encode_and_mask (i : Instr) : encode i &&& i.pattern.mask = i.pattern.value := by
  obtain ⟨-, hmatches, -⟩ := encoding_statement i
  exact beq_iff_eq.mp hmatches

/-- Under mask 0xF000 a word keeps its class digit. -/
theorem class_of_and_F000 {op v : Word} (h : op &&& 0xF000#16 = v) : op.toNat / 4096 = v.toNat / 4096 := by
  rw [← wordNNN_fields op, wordNNN_and_F000] at h
  rw [← h, ← toNat_fieldClass, ← toNat_fieldClass, fieldClass_wordNNN]

/-- Under mask 0xF00F a word keeps its class digit and its last digit. -/
theorem fields_of_and_F00F {op v : Word} (h : op &&& 0xF00F#16 = v) :
    op.toNat / 4096 = v.toNat / 4096 ∧ op.toNat % 16 = v.toNat % 16 := by
  rw [← wordXYN_fields op, wordXYN_and_F00F] at h
  rw [← h, ← toNat_fieldClass, ← toNat_fieldClass, ← val_fieldN, ← val_fieldN, fieldClass_wordXYN, fieldN_wordXYN]
  exact ⟨rfl, rfl⟩

/-- Under mask 0xF0FF a word keeps its class digit and its low byte. -/
theorem fields_of_and_F0FF {op v : Word} (h : op &&& 0xF0FF#16 = v) :
    op.toNat / 4096 = v.toNat / 4096 ∧ op.toNat % 256 = v.toNat % 256 := by
  rw [← wordXNN_fields op, wordXNN_and_F0FF] at h
  rw [← h, ← toNat_fieldClass, ← toNat_fieldClass, ← toNat_fieldNN, ← toNat_fieldNN, fieldClass_wordXNN,
    fieldNN_wordXNN]
  exact ⟨rfl, rfl⟩

/-- A word that matches the row of an instruction decodes to an instruction of that row. -/
theorem decodeWord_of_matches {op : Word} {j : Instr} (h : op &&& j.pattern.mask = j.pattern.value) :
    ∃ i, decodeWord op = some i ∧ i.pattern = j.pattern := by
  cases j with
  | op00E0 | op00EE =>
    obtain rfl := BitVec.and_allOnes.symm.trans h
    exact ⟨_, rfl, rfl⟩
  | op1NNN _ | op2NNN _ | op3XNN _ _ | op4XNN _ _ | op6XNN _ _ | op7XNN _ _ | opANNN _ | opBNNN _ | opCXNN _ _
  | opDXYN _ _ _ => simp [decodeWord, Instr.pattern, class_of_and_F000 h]
  | op5XY0 _ _ | op9XY0 _ _ =>
    obtain ⟨hc, hn⟩ := fields_of_and_F00F h
    simp [decodeWord, decodeRegPair, Instr.pattern, hc, Fin.ext_iff, hn]
  | op8XY0 _ _ | op8XY1 _ _ | op8XY2 _ _ | op8XY3 _ _ | op8XY4 _ _ | op8XY5 _ _ | op8XY6 _ _ | op8XY7 _ _
  | op8XYE _ _ =>
    obtain ⟨hc, hn⟩ := fields_of_and_F00F h
    simp [decodeWord, decodeClass8, Instr.pattern, hc, hn]
  | opEX9E _ | opEXA1 _ =>
    obtain ⟨hc, hn⟩ := fields_of_and_F0FF h
    simp [decodeWord, decodeClassE, Instr.pattern, hc, hn]
  | opFX07 _ | opFX0A _ | opFX15 _ | opFX18 _ | opFX1E _ | opFX29 _ | opFX33 _ | opFX55 _ | opFX65 _ =>
    obtain ⟨hc, hn⟩ := fields_of_and_F0FF h
    simp [decodeWord, decodeClassF, Instr.pattern, hc, hn]

/-- Settles O3: a decoded word is an encoding, which matches its row; the converse is `decodeWord_of_matches`. -/
theorem decodeSelectsTheMatchingRow : Obligations.DecodeSelectsTheMatchingRow := by
  refine fun op => ⟨fun i hi => ?_, fun j => decodeWord_of_matches⟩
  rw [← encode_of_decodeWord hi]
  exact encode_and_mask i

theorem exists_pattern_of_mem_opcodeMap {p : Pattern} (h : p ∈ opcodeMap) : ∃ j : Instr, j.pattern = p := by
  rw [opcodeMap, ← List.map_append, List.mem_map] at h
  obtain ⟨j, -, hj⟩ := h
  exact ⟨j, hj⟩

/-- Settles O4: a word decodes to one instruction, whose row is every row that the word matches. -/
theorem patternsArePairwiseDisjoint : Obligations.PatternsArePairwiseDisjoint := by
  refine ⟨rfl, by decide, fun op p hp q hq hop hoq => ?_⟩
  obtain ⟨j, rfl⟩ := exists_pattern_of_mem_opcodeMap hp
  obtain ⟨k, rfl⟩ := exists_pattern_of_mem_opcodeMap hq
  obtain ⟨i, hi, hij⟩ := decodeWord_of_matches (beq_iff_eq.mp hop)
  obtain ⟨i', hi', hik⟩ := decodeWord_of_matches (beq_iff_eq.mp hoq)
  obtain rfl : i = i' := Option.some.inj (hi.symm.trans hi')
  exact hij.symm.trans hik

/-! ### Words that are no instruction (R87) -/

theorem decodeClass0_eq_none {op : Word} : decodeClass0 op = none ↔ op.toNat ≠ 0x00E0 ∧ op.toNat ≠ 0x00EE := by
  simp only [decodeClass0, ← BitVec.toNat_inj]
  split <;> simp_all

theorem decodeRegPair_eq_none {op : Word} {build : Reg → Reg → Instr} :
    decodeRegPair op build = none ↔ op.toNat % 16 ≠ 0 := by
  simp [decodeRegPair, Fin.ext_iff]

theorem decodeClass8_eq_none {op : Word} :
    decodeClass8 op = none ↔ op.toNat % 16 ∈ [0x8, 0x9, 0xA, 0xB, 0xC, 0xD, 0xF] := by
  simp only [decodeClass8, val_fieldN]
  split <;> simp_all
  omega

theorem decodeClassE_eq_none {op : Word} : decodeClassE op = none ↔ op.toNat % 256 ∉ [0x9E, 0xA1] := by
  simp only [decodeClassE, toNat_fieldNN]
  split <;> simp_all

theorem decodeClassF_eq_none {op : Word} :
    decodeClassF op = none ↔ op.toNat % 256 ∉ [0x07, 0x0A, 0x15, 0x18, 0x1E, 0x29, 0x33, 0x55, 0x65] := by
  simp only [decodeClassF, toNat_fieldNN]
  split <;> simp_all

/-- Settles O5: by class digit, alternative `h_(k + 1)` of the dispatch being class `k`; ten classes decode every word. -/
theorem wordsThatAreNotInstructions : Obligations.WordsThatAreNotInstructions := by
  intro op
  have hlt := op.isLt
  have hlow : op.toNat < 0x1000 ↔ op.toNat / 0x1000 = 0 := by omega
  simp only [decodeWord, toNat_fieldClass, hlow]
  split
  case h_17 => simp only [imp_false] at *; omega
  case h_1 hc => simp [hc, decodeClass0_eq_none]
  case h_6 hc | h_10 hc => simp [hc, decodeRegPair_eq_none]
  case h_9 hc => simp [hc, decodeClass8_eq_none]
  case h_15 hc => simp [hc, decodeClassE_eq_none]
  case h_16 hc => simp [hc, decodeClassF_eq_none]
  case h_2 hc | h_3 hc | h_4 hc | h_5 hc | h_7 hc | h_8 hc | h_11 hc | h_12 hc | h_13 hc | h_14 hc => simp [hc]

/-- Settles O6: each of the words evaluates. -/
theorem wordsOfEveryFamilyDecode : Obligations.WordsOfEveryFamilyDecode :=
  ⟨rfl, rfl, rfl, rfl, rfl, rfl, rfl, rfl, rfl⟩

end Sys2Proof

namespace Sys2Proof.Machine

/-! ### The faults of fetch and decode (R117, R205) -/

theorem cycle_of_fetch_error {s : State} {f : Fault} (h : s.fetch = .error f) : cycle s = .next (s.takeFault f) := by
  simp only [cycle, h]

theorem cycle_of_no_instruction {s : State} {op : Word} (h : s.fetch = .ok op) (hop : decodeWord op = none) :
    cycle s = .next (s.takeFault (.unknownOpcode op s.pc)) := by
  simp only [cycle, h, hop]

/-- Settles O9: the cycle takes the fault of the fetch from 4095 on, and that of decode below. -/
theorem fetchAndDecodeFaultsAreTaken : Obligations.FetchAndDecodeFaultsAreTaken := by
  refine fun s hen => ⟨fun hpc => ?_, fun op hpc hop hnone => ?_⟩
  · rw [step_of_cycleEnabled hen, cycle_of_fetch_error (State.fetch_of_outside hpc), State.takeFault]
  · rw [step_of_cycleEnabled hen, cycle_of_no_instruction (State.fetch_eq_ok.mpr ⟨hpc, hop⟩) hnone, State.takeFault]

end Sys2Proof.Machine

/-! The statements about the cycle: a step runs the decoded instruction, counts the timers and gives the strobes, or does
nothing; and the execute stage of CXNN and of the timer instructions. -/

namespace Sys2Proof.Machine

/-! ### A step that executes an instruction (R110, R116, R117) -/

/-- The bytes of a decoded instruction join to a word that decodes to it. -/
theorem decodeWord_of_decode_bytes {hi lo : Byte} {i : Instr} (h : decode [hi, lo] = .ok (i, [])) :
    decodeWord (joinBytes hi lo) = some i := by
  simp only [decode] at h
  split at h <;> cases h
  assumption

/-- The end of a cycle as a choice on the fault latch. -/
theorem State.finishCycle_eq_ite (s : State) :
    s.finishCycle = if s.fault = none then s.tickTimers.notify else s := by
  cases h : s.fault with
  | none => exact State.finishCycle_of_no_fault h
  | some f => exact State.finishCycle_of_fault h

theorem cycle_of_instruction {s : State} {op : Word} {i : Instr} (h : s.fetch = .ok op) (hop : decodeWord op = some i) :
    cycle s = .next (executed i s).finishCycle := by
  simp only [cycle, h, hop, executeStage, exec_eq]

/-- A step whose instruction raises no fault is the completed instruction with the timers counted and the strobes given. -/
theorem step_of_completed {s : State} {op : Word} {i : Instr} (hen : s.hostPhase.cycleEnabled = true)
    (hfetch : s.hostPhase.fetch = .ok op) (hop : decodeWord op = some i) (hf : faultOf i s.hostPhase = none) :
    step s = .next (completed i s.hostPhase).tickTimers.notify ∧ (completed i s.hostPhase).fault = none := by
  obtain ⟨-, -, -, -, hs⟩ := State.cycleEnabled_iff.mp hen
  have hfault : (completed i s.hostPhase).fault = none := (exec_undisturbed (exec_of_no_fault hf) hf).fault.trans hs
  have hdone : executed i s.hostPhase = completed i s.hostPhase := by rw [executed, hf]
  rw [step_of_cycleEnabled hen, cycle_of_instruction hfetch hop, hdone, State.finishCycle_of_no_fault hfault]
  exact ⟨rfl, hfault⟩

/-- Settles O7: the cycle is the fetch, the decoder's answer and exec, which always answers a next state. -/
theorem stepRunsTheDecodedInstruction : Obligations.StepRunsTheDecodedInstruction := by
  refine ⟨fun s i _ hen hpc hdec => ?_, fun s h => State.hostPhase_of_no_inputs h⟩
  have hfetch := State.fetch_eq_ok.mpr ⟨Nat.lt_of_add_lt_add_right hpc, rfl⟩
  rw [step_of_cycleEnabled hen, cycle_of_instruction hfetch (decodeWord_of_decode_bytes hdec), exec_eq,
    State.finishCycle_eq_ite]

/-! ### Strobes and timers (R116, R119) -/

/-- After a completed instruction `changed` is set by 00E0 and DXYN, else as it was (R176). -/
theorem changed_completed (i : Instr) (s : State) : (completed i s).changed = (writesDisplay i || s.changed) := by
  cases h : writesDisplay i with
  | false => exact (display_completed h).2
  | true =>
    cases i with
    | op00E0 | opDXYN _ _ _ => rfl
    | _ => cases h

/-- Settles O17: the notify stage reads `changed`, which only 00E0 and DXYN set; a cycle that faults changes no output. -/
theorem completedCyclesGiveTheirStrobes : Obligations.CompletedCyclesGiveTheirStrobes := by
  refine ⟨fun s op i hen hchanged hfetch hop hf => ?_, fun s t hen h hfault => ?_⟩
  · obtain ⟨hstep, hfault⟩ := step_of_completed hen hfetch hop hf
    refine ⟨_, hstep, rfl, hfault, ?_⟩
    rw [State.notify_strobes, State.tickTimers_changed, changed_completed, hchanged, Bool.or_false]
  · obtain ⟨-, hstrobes, -⟩ := faultingCyclesArePrecise s t hen h hfault
    exact hstrobes

/-- Settles O18: the timers are counted after the instruction, which leaves both but for FX15 and FX18. -/
theorem timersCountDownEveryCompletedCycle : Obligations.TimersCountDownEveryCompletedCycle := by
  intro s op i hen hfetch hop hf
  refine ⟨_, (step_of_completed hen hfetch hop hf).1, ?_⟩
  simp only [State.notify_dt, State.notify_st, State.tickTimers_dt, State.tickTimers_st, toNat_countDown]
  refine ⟨?_, fun h => by rw [dt_completed h], ?_, fun h => by rw [st_completed h], ?_⟩
  · rintro x rfl; rfl
  · rintro x rfl; rfl
  · rintro x rfl; exact (s.hostPhase.readV_writeV x _ x).trans (if_pos rfl)

/-! ### CXNN and the timer instructions (R153, R184 to R186) -/

/-- Settles O36: `V[X]` is the masked byte, and a bit that is 0 in the mask is 0 under it. -/
theorem randomByteIsMasked : Obligations.RandomByteIsMasked := by
  intro x nn s
  have read (z : Reg) := s.drawRandom.2.readV_writeV x (Config.rnd s.freeIdx &&& nn) z
  have masked := (read x).trans (if_pos rfl)
  refine ⟨_, rfl, masked, fun k hk => ?_, fun h0 => ?_, fun z hz => (read z).trans (if_neg hz.symm), rfl⟩
  · exact (congrArg (·.getLsbD k) masked).trans (by rw [BitVec.getLsbD_and, hk, Bool.and_false])
  · exact masked.trans (by rw [h0, BitVec.and_zero])

/-- Settles O50: FX07 is a register write; FX15 and FX18 write a field of their own. -/
theorem timerInstructionsMoveTheTimers : Obligations.TimerInstructionsMoveTheTimers := by
  intro x s
  have read (z : Reg) := s.readV_writeV x s.dt z
  exact ⟨⟨_, rfl, (read x).trans (if_pos rfl), fun z hz => (read z).trans (if_neg hz.symm), rfl⟩, rfl, rfl⟩

/-! ### Boundaries with no cycle (R120, R228, R230) -/

/-- With neither a reset due nor a cycle enabled after the host's commands, the step is those commands alone. -/
theorem step_of_idle {s : State} (hreset : s.hostPhase.resetDue = false) (hcycle : s.hostPhase.cycleEnabled = false) :
    step s = .next s.hostPhase := by
  simp [step, sequencer, hreset, hcycle]

/-- A reset is due in a running machine that is not paused and has one pending (R228). -/
theorem State.resetDue_eq_false_iff {s : State} :
    s.resetDue = false ↔ s.resetPending = false ∨ s.running = false ∨ s.paused = true := by
  simp only [State.resetDue, Bool.and_eq_false_iff, Bool.not_eq_false']
  tauto

/-- No cycle is enabled in a machine that breaks one clause of R120. -/
theorem State.cycleEnabled_eq_false {s : State}
    (h : s.initialized = false ∨ s.running = false ∨ s.paused = true ∨ s.fault ≠ none) : s.cycleEnabled = false := by
  rw [Bool.eq_false_iff]
  intro hen
  obtain ⟨hinit, hrun, hpaused, -, hfault⟩ := State.cycleEnabled_iff.mp hen
  simp [hinit, hrun, hpaused, hfault] at h

/-- A machine that the host's commands leave stopped or paused does nothing more in the step. -/
theorem step_of_stopped_or_paused {s : State} (h : s.hostPhase.running = false ∨ s.hostPhase.paused = true) :
    step s = .next s.hostPhase :=
  step_of_idle (State.resetDue_eq_false_iff.mpr (.inr h)) (State.cycleEnabled_eq_false (.inr (h.imp_right .inl)))

/-- A boundary at which the host gives one command takes back the outputs and does that command. -/
theorem State.hostPhase_of_command {s : State} {c : HostCmd} {rest : List (List HostCmd)} (h : s.inputs = [c] :: rest) :
    s.hostPhase = ({ s with inputs := rest, strobes := [], answers := [] } : State).hostDo c := by
  simp only [State.hostPhase, h, List.headD_cons, List.tail_cons, List.foldl_cons, List.foldl_nil]

/-- Settles O55: one clause of R120 fails and no reset is due, so the sequencer does nothing; `stop` is such a boundary. -/
theorem cyclesRunOnlyWhenEnabled : Obligations.CyclesRunOnlyWhenEnabled := by
  refine ⟨fun s hcycle hreset => ?_, fun s rest h => ?_⟩
  · exact step_of_idle (State.resetDue_eq_false_iff.mpr hreset) (State.cycleEnabled_eq_false hcycle)
  · have hphase := State.hostPhase_of_command h
    rw [step_of_stopped_or_paused (.inl (by rw [hphase]; rfl)), hphase, State.hostDo]

/-- Settles O54: `pause` and `unpause` are one field, and the sequencer acts on the state they leave. -/
theorem pausedMachinesHoldStill : Obligations.PausedMachinesHoldStill := by
  refine ⟨fun s => ⟨rfl, rfl⟩, fun s h => step_of_stopped_or_paused (.inr h), fun s rest h => ?pause,
    fun s rest h hinit hrun hfault hpending => ?unpause, fun s rest h hrun hpending => ?reset,
    fun s rest h hrun => ?stopped⟩ <;> have hphase := State.hostPhase_of_command h
  case pause => rw [step_of_stopped_or_paused (.inr (by rw [hphase]; rfl)), hphase, State.hostDo]
  case unpause =>
    rw [step_of_cycleEnabled, hphase, State.hostDo]
    rw [hphase]
    exact State.cycleEnabled_iff.mpr ⟨hinit, hrun, rfl, hpending, hfault⟩
  case reset =>
    rw [step_of_resetDue, hphase, State.hostDo]
    simp [hphase, State.hostDo, State.resetDue, hrun, hpending]
  case stopped => rw [step_of_stopped_or_paused (.inl (by rw [hphase]; exact hrun)), hphase, State.hostDo]

end Sys2Proof.Machine

/-! The statements about control flow: the jumps, the call and the return behind it, and the conditional skips that compare
registers. -/

namespace Sys2Proof.Machine

/-! ### Jumps and skips (R132, R134 to R138) -/

/-- Settles O26: the table names no fault for a jump, and rule R25 its target. -/
theorem jumpsSetPc : Obligations.JumpsSetPc := fun nnn s =>
  ⟨⟨_, exec_of_no_fault rfl, toNat_pc_completed (.op1NNN nnn) s, rfl⟩,
    ⟨_, exec_of_no_fault rfl, toNat_pc_completed (.opBNNN nnn) s, rfl⟩⟩

/-- Settles O30: the table names no fault for a skip, and rule R25 its `pc`, for 4XNN and 9XY0 on the complement. -/
theorem conditionalSkipsCompareRegisters : Obligations.ConditionalSkipsCompareRegisters := by
  intro x y nn s
  simp only [ne_eq, ite_not]
  exact ⟨⟨_, exec_of_no_fault rfl, rfl, toNat_pc_completed (.op3XNN x nn) s⟩,
    ⟨_, exec_of_no_fault rfl, rfl, toNat_pc_completed (.op4XNN x nn) s⟩,
    ⟨_, exec_of_no_fault rfl, rfl, toNat_pc_completed (.op5XY0 x y) s⟩,
    ⟨_, exec_of_no_fault rfl, rfl, toNat_pc_completed (.op9XY0 x y) s⟩⟩

/-! ### Call and return (R131, R133, R139) -/

/-- Below 16 entries a completed 2NNN has its own address in the entry that `SP` selected, and every other entry as before. -/
theorem getElem_stk_completed_op2NNN {s : State} (h : s.sp.val < 16) (nnn : BitVec 12) (k : Fin 16) :
    (completed (.op2NNN nnn) s).stk[k.val] = if k.val = s.sp.val then s.pc else s.stk[k.val] := by
  simp only [completed, dif_pos h, Vector.getElem_set, eq_comm]

/-- With `k + 1` entries the address that 00EE goes to is 2 behind entry `k`. -/
theorem nextPc_op00EE {s : State} {k : Fin 16} (h : s.sp.val = k.val + 1) :
    nextPc .op00EE s = (s.stk[k.val].toNat + 2) % 65536 := by
  simp [nextPc, h]

/-- Settles O27: a call takes the fault of its row with a full stack, and completes below. -/
theorem callPushesItsOwnAddress : Obligations.CallPushesItsOwnAddress := by
  refine fun nnn s => ⟨fun h => ?_, fun h => exec_of_fault (if_pos h)⟩
  exact ⟨_, exec_of_no_fault (if_neg h.ne), getElem_stk_completed_op2NNN h nnn, min_eq_left h,
    toNat_pc_completed (.op2NNN nnn) s, rfl⟩

/-- Settles O28: a return takes the fault of its row with an empty stack, and completes above. -/
theorem returnResumesBehindTheCall : Obligations.ReturnResumesBehindTheCall := by
  refine fun s => ⟨fun k h => ?_, fun h => exec_of_fault (if_pos h)⟩
  exact ⟨_, exec_of_no_fault (if_neg (by omega)), Nat.sub_eq_of_eq_add h,
    (toNat_pc_completed .op00EE s).trans (nextPc_op00EE h), rfl⟩

/-- Settles O29: the call leaves `n + 1` entries with its own address in entry `n`, which is the one that the return pops. -/
theorem callThenReturnRestoresPcAndSp : Obligations.CallThenReturnRestoresPcAndSp := by
  intro nnn s n hn
  obtain ⟨t, hcall, hstk, hsp, -, -⟩ := (callPushesItsOwnAddress nnn s).1 (hn.trans_lt n.isLt)
  refine ⟨t, hcall, fun u husp hustk => ?_⟩
  have hdepth : u.sp.val = n.val + 1 := by rw [husp, hsp, hn]
  have hentry : u.stk[n.val] = s.pc := by rw [hustk, hstk, if_pos hn.symm]
  obtain ⟨w, hret, hwsp, hwpc, hframe⟩ := (returnResumesBehindTheCall u).1 n hdepth
  exact ⟨w, hret, hentry ▸ hwpc, Fin.ext (hwsp.trans hn.symm), hframe⟩

end Sys2Proof.Machine

/-! The statements about the instructions that write `V[X]` alone: 6XNN, 7XNN, 8XY0 and the bitwise 8XY1 to 8XY3. -/

namespace Sys2Proof.Machine

/-! ### A result in `V[X]` and no flag (R141 to R146) -/

/-- The written register after the common end of 6XNN, 7XNN and 8XY0 to 8XY3. -/
theorem State.readV_advance_writeV_self (s : State) (x : Reg) (w : Byte) (n : Word) :
    ((s.writeV x w).advance n).readV x = w :=
  (s.readV_writeV x w x).trans (if_pos rfl)

/-- Every other register after it, VF too: no flag is written. -/
theorem State.readV_advance_writeV_of_ne (s : State) (x : Reg) (w : Byte) (n : Word) (z : Reg) (hz : z ≠ x) :
    ((s.writeV x w).advance n).readV z = s.readV z :=
  (s.readV_writeV x w z).trans (if_neg hz.symm)

/-- Settles O31: the three instructions are one register write each, 7XNN's of the sum modulo 256. -/
theorem loadMoveAndAddImmediate : Obligations.LoadMoveAndAddImmediate := by
  intro x y nn s
  have self (w : Byte) := s.readV_advance_writeV_self x w 2#16
  have others (w : Byte) := s.readV_advance_writeV_of_ne x w 2#16
  refine ⟨⟨_, rfl, self _, others _, rfl⟩, ⟨_, rfl, ?_, others _, rfl⟩, ⟨_, rfl, self _, others _, rfl⟩⟩
  exact (congrArg BitVec.toNat (self _)).trans (BitVec.toNat_add _ _)

/-- Settles O32: the three instructions are one register write each, of the word operation that acts bit by bit. -/
theorem bitwiseOperationsLeaveVF : Obligations.BitwiseOperationsLeaveVF := by
  intro x y s
  have self (w : Byte) (k : Nat) := congrArg (·.getLsbD k) (s.readV_advance_writeV_self x w 2#16)
  have others (w : Byte) := s.readV_advance_writeV_of_ne x w 2#16
  exact ⟨⟨_, rfl, fun k _ => (self _ k).trans BitVec.getLsbD_or, others _, rfl⟩,
    ⟨_, rfl, fun k _ => (self _ k).trans BitVec.getLsbD_and, others _, rfl⟩,
    ⟨_, rfl, fun k _ => (self _ k).trans BitVec.getLsbD_xor, others _, rfl⟩⟩

end Sys2Proof.Machine

/-! The statements about the index register and memory: ANNN and FX29, the decimal digits of FX33, and the register blocks of
FX55 and FX65. -/

namespace Sys2Proof.Machine

/-! ### The index alone (R161, R163) -/

/-- Settles O37: both instructions write `I` alone, the zero-extended immediate and the address of glyph `V[X]`. -/
theorem indexLoads : Obligations.IndexLoads := fun x nnn s =>
  ⟨⟨_, exec_of_no_fault rfl, toNat_immNNN nnn, rfl⟩, ⟨_, exec_of_no_fault rfl, toNat_glyphAddr (s.readV x), rfl⟩⟩

/-! ### Decimal digits (R164) -/

/-- Each digit of FX33, hundreds, tens and ones, as a number: all of them fit a byte. -/
theorem toNat_getD_bcdDigits (w : Byte) :
    ((bcdDigits w).getD 0 0#8).toNat = w.toNat / 100 ∧ ((bcdDigits w).getD 1 0#8).toNat = w.toNat / 10 % 10 ∧
      ((bcdDigits w).getD 2 0#8).toNat = w.toNat % 10 := by
  have digit {d : Nat} (hd : d < 256) : (BitVec.ofNat 8 d).toNat = d := (BitVec.toNat_ofNat d 8).trans (Nat.mod_eq_of_lt hd)
  exact ⟨digit (by omega), digit (by omega), digit (by omega)⟩

/-- After FX33 byte `k` of its block is digit `k` of `V[X]`. -/
theorem read_mem_completed_opFX33 {s : State} (x : Reg) (hm : s.mem.wf = true) (hin : s.i.toNat ≤ 4093) {k : Nat}
    (hk : k < 3) : (completed (.opFX33 x) s).mem.read (s.i.toNat + k) = (bcdDigits (s.readV x)).getD k 0#8 := by
  have hlen : (bcdDigits (s.readV x)).length = 3 := rfl
  have hmem : (completed (.opFX33 x) s).mem = s.mem.writeBytes s.i.toNat (bcdDigits (s.readV x)) := rfl
  rw [hmem, Memory.read_writeBytes hm (by omega), if_pos (by omega), Nat.add_sub_cancel_left]

/-- Settles O39: the block is the three digits of `V[X]`; outside the memory FX33 takes the fault of its row. -/
theorem storeDecimalDigits : Obligations.StoreDecimalDigits := by
  refine fun x s hm => ⟨fun hin => ?_, fun hout => exec_of_fault (if_pos (by omega))⟩
  have hf : faultOf (.opFX33 x) s = none := if_neg (by omega)
  obtain ⟨hhundreds, htens, hones⟩ := toNat_getD_bcdDigits (s.readV x)
  have stored {k n : Nat} (hk : k < 3) (hn : ((bcdDigits (s.readV x)).getD k 0#8).toNat = n) :
      ((completed (.opFX33 x) s).mem.read (s.i.toNat + k)).toNat = n :=
    (congrArg BitVec.toNat (read_mem_completed_opFX33 x hm hin hk)).trans hn
  have h0 : ((completed (.opFX33 x) s).mem.read s.i.toNat).toNat = (s.readV x).toNat / 100 :=
    stored (by decide) hhundreds
  have h1 := stored (by decide) htens
  have h2 := stored (by decide) hones
  refine ⟨_, exec_of_no_fault hf, h0, h1, h2, ?_, fun a ha => read_mem_completed hf hm ha, rfl⟩
  rw [h0, h1, h2]
  omega

/-! ### Register blocks (R165, R166) -/

/-- `I` past a block of `X + 1` bytes, as a number. -/
theorem toNat_indexPast (s : State) (x : Reg) : (s.indexPast x).toNat = (s.i.toNat + x.val + 1) % 65536 :=
  BitVec.toNat_ofNat _ _

/-- FX55 and FX65 take the fault of their row with their block reaching outside the memory. -/
theorem faultOf_registerBlock_of_outside {s : State} {x : Reg} (h : 4096 ≤ s.i.toNat + x.val) :
    faultOf (.opFX55 x) s = some (.outOfBounds (max s.i.toNat 4096) s.pc) ∧
      faultOf (.opFX65 x) s = some (.outOfBounds (max s.i.toNat 4096) s.pc) :=
  ⟨if_pos h, if_pos h⟩

/-- Settles O40: the block is V0 to VX, and every other byte is outside it. -/
theorem storeRegistersAndAdvanceIndex : Obligations.StoreRegistersAndAdvanceIndex := by
  refine fun x s hm => ⟨fun hin => ?_, fun hout => exec_of_fault (faultOf_registerBlock_of_outside hout).1⟩
  have hlt : s.i.toNat + x.val < 4096 := Nat.lt_succ_of_le hin
  have hf := (faultOf_registerBlock hlt).1
  exact ⟨_, exec_of_no_fault hf, fun k hk => read_mem_completed_opFX55 hm hlt hk,
    fun a ha => read_mem_completed hf hm ha, toNat_indexPast s x, rfl⟩

/-- Settles O41: V0 to VX are the bytes of the block, and the registers above are loaded with themselves. -/
theorem loadRegistersAndAdvanceIndex : Obligations.LoadRegistersAndAdvanceIndex := by
  refine fun x s => ⟨fun hin => ?_, fun hout => exec_of_fault (faultOf_registerBlock_of_outside hout).2⟩
  have hf := (faultOf_registerBlock (Nat.lt_succ_of_le hin)).2
  exact ⟨_, exec_of_no_fault hf, fun k => s.getElem_loadedRegs x k, toNat_indexPast s x, rfl⟩

end Sys2Proof.Machine

/-! The statements about the display: clearing it, and drawing as the XOR with a mask, which gives the law of drawing
twice and that of sprites off the canvas. -/

namespace Sys2Proof.Machine

/-! ### Clearing (R170) -/

/-- Settles O43: every pixel of the blank display is unlit, and 00E0 sets `changed` without a test. -/
theorem clearDarkensEveryPixel : Obligations.ClearDarkensEveryPixel := fun _ =>
  ⟨_, rfl, fun a b => pixelAt_blank a.val b.val, rfl, rfl⟩

/-! ### Drawing as XOR with a mask (R171 to R175) -/

/-- Drawing goes from `d` to `e` by flipping exactly the pixels of the mask `S`, and the collision is recorded exactly when it
was before or the mask met a lit pixel. -/
structure Drawing.Xored (d e : Drawing) (S : Fin 64 → Fin 32 → Prop) : Prop where
  flips : ∀ a b, S a b → pixelAt e.fb a.val b.val = !pixelAt d.fb a.val b.val
  keeps : ∀ a b, ¬S a b → pixelAt e.fb a.val b.val = pixelAt d.fb a.val b.val
  collision_iff : e.collision = true ↔ d.collision = true ∨ ∃ a b, S a b ∧ pixelAt d.fb a.val b.val = true

/-- Drawing nothing has the empty mask. -/
theorem Drawing.Xored.refl (d : Drawing) {S : Fin 64 → Fin 32 → Prop} (hS : ∀ a b, ¬S a b) : d.Xored d S where
  flips a b h := absurd h (hS a b)
  keeps _ _ _ := rfl
  collision_iff := by simp [hS]

/-- Two drawings one after the other have the union of their masks, if these are disjoint: then the second meets its pixels
as they were before the first. -/
theorem Drawing.Xored.trans {d e f : Drawing} {S T U : Fin 64 → Fin 32 → Prop} (hde : d.Xored e S) (hef : e.Xored f T)
    (hdisj : ∀ a b, S a b → ¬T a b) (hU : ∀ a b, U a b ↔ S a b ∨ T a b) : d.Xored f U where
  flips a b h := by
    rcases (hU a b).mp h with hS | hT
    · rw [hef.keeps a b (hdisj a b hS), hde.flips a b hS]
    · rw [hef.flips a b hT, hde.keeps a b fun hS => hdisj a b hS hT]
  keeps a b h := by
    obtain ⟨hS, hT⟩ := not_or.mp (mt (hU a b).mpr h)
    rw [hef.keeps a b hT, hde.keeps a b hS]
  collision_iff := by
    have met (a : Fin 64) (b : Fin 32) :
        T a b ∧ pixelAt e.fb a.val b.val = true ↔ T a b ∧ pixelAt d.fb a.val b.val = true :=
      and_congr_right fun hT => by rw [hde.keeps a b fun hS => hdisj a b hS hT]
    simp only [hef.collision_iff, hde.collision_iff, met, hU, or_and_right, exists_or, or_assoc]

/-- A set bit flips the one pixel it lands on, and none when that is off the canvas (R172, R173). -/
theorem Drawing.xored_touch (d : Drawing) (x y : Nat) : d.Xored (d.touch x y) fun a b => a.val = x ∧ b.val = y where
  flips := by rintro a b ⟨rfl, rfl⟩; simp [(pixelAt_touch d _ _ _ _).1]
  keeps a b h := by simp [(pixelAt_touch d x y _ _).1, h]
  collision_iff := by
    simp only [(pixelAt_touch d x y 0 0).2, Bool.or_eq_true, Bool.and_eq_true, decide_eq_true_eq]
    refine or_congr_right ⟨fun ⟨⟨hx, hy⟩, hlit⟩ => ⟨⟨x, hx⟩, ⟨y, hy⟩, ⟨rfl, rfl⟩, hlit⟩, ?_⟩
    rintro ⟨a, b, ⟨rfl, rfl⟩, hlit⟩
    exact ⟨⟨a.isLt, b.isLt⟩, hlit⟩

/-- One bit of a sprite row flips its pixel exactly when it is set (R172). -/
theorem Drawing.xored_bit (d : Drawing) (w : Byte) (vx y c : Nat) :
    d.Xored (d.bit w vx y c) fun a b => spriteBit w c = true ∧ a.val = vx + c ∧ b.val = y := by
  rw [Drawing.bit]
  by_cases hbit : spriteBit w c = true
  · simpa only [hbit, if_true, true_and] using d.xored_touch (vx + c) y
  · rw [if_neg hbit]
    exact .refl d fun _ _ h => hbit h.1

/-- The pixels under the first `n` bits of the byte `w` from column `vx` of row `y` on. -/
def rowMask (w : Byte) (vx y n : Nat) (a : Fin 64) (b : Fin 32) : Prop :=
  vx ≤ a.val ∧ a.val < vx + n ∧ b.val = y ∧ spriteBit w (a.val - vx) = true

/-- The first `n` bits of a sprite row, one after the other: no two land on the same column. -/
theorem Drawing.xored_bits (d : Drawing) (w : Byte) (vx y n : Nat) :
    d.Xored ((List.range n).foldl (fun d c => d.bit w vx y c) d) (rowMask w vx y n) := by
  induction n with
  | zero => exact .refl d fun a b ⟨hge, hlt, _⟩ => by omega
  | succ n ih =>
    rw [List.range_succ, List.foldl_append]
    refine ih.trans (Drawing.xored_bit _ w vx y n) (fun a b ⟨_, hlt, _⟩ ⟨_, hcol, _⟩ => by omega) fun a b => ?_
    by_cases hcol : a.val = vx + n
    · simp [rowMask, hcol, and_comm]
    · simp only [rowMask, hcol, false_and, and_false, or_false]
      exact and_congr_right fun _ => and_congr_left fun _ => by omega

/-- The pixels under the sprite with the row bytes `ws` and its top-left corner at `(vx, vy)`. -/
def spriteMask (ws : List Byte) (vx vy : Nat) (a : Fin 64) (b : Fin 32) : Prop :=
  vy ≤ b.val ∧ b.val < vy + ws.length ∧ rowMask (ws.getD (b.val - vy) 0#8) vx b.val 8 a b

/-- A sprite drawn row by row: no two rows land on the same row of the display. -/
theorem Drawing.xored_rows (d : Drawing) (vx vy : Nat) (ws : List Byte) :
    d.Xored (d.rows vx vy ws) (spriteMask ws vx vy) := by
  induction ws generalizing d vy with
  | nil => exact .refl d fun a b ⟨hge, hlt, _⟩ => by simp at hlt; omega
  | cons w ws ih =>
    refine (d.xored_bits w vx vy 8).trans (ih _ (vy + 1))
      (fun a b ⟨_, _, hrow, _⟩ ⟨hge, _⟩ => by omega) fun a b => ?_
    rcases lt_trichotomy b.val vy with hlt | heq | hgt
    · simp only [spriteMask, rowMask]; omega
    · simp [spriteMask, rowMask, heq]
    · have hfirst : ¬rowMask w vx vy 8 a b := fun ⟨_, _, hrow, _⟩ => by omega
      have hrow : b.val - vy = b.val - (vy + 1) + 1 := by omega
      simp only [spriteMask, hfirst, false_or, hrow, List.getD_cons_succ, List.length_cons]
      constructor <;> exact fun ⟨_, _, h⟩ => ⟨by omega, by omega, h⟩

/-- Row byte `k` of a sprite is the byte at `I + k` (R172). -/
theorem State.getD_spriteRows (s : State) {n : Fin 16} {k : Nat} (h : k < n.val) :
    (s.spriteRows n).getD k 0#8 = s.mem.read (s.i.toNat + k) :=
  s.mem.getD_readBytes _ n.val k h

/-- The mask of the sprite that DXYN draws is the mask `S` of R175. -/
theorem State.spriteMask_iff_spriteCovers (s : State) (x y : Reg) (n : Fin 16) (a : Fin 64) (b : Fin 32) :
    spriteMask (s.spriteRows n) (s.readV x).toNat (s.readV y).toNat a b ↔ s.spriteCovers x y n a.val b.val := by
  have hlen : (s.spriteRows n).length = n.val := Memory.length_readBytes _ _ _
  rw [spriteMask, rowMask, State.spriteCovers, hlen]
  constructor
  · rintro ⟨hyb, hbn, hxa, hax, -, hbit⟩
    rw [s.getD_spriteRows (by omega)] at hbit
    exact ⟨hxa, hax, hyb, hbn, hbit⟩
  · rintro ⟨hxa, hax, hyb, hbn, hbit⟩
    rw [s.getD_spriteRows (by omega)]
    exact ⟨hyb, hbn, hxa, hax, rfl, hbit⟩

/-- DXYN draws by XOR with the mask `S` of R175. -/
theorem State.xored_drawn (s : State) (x y : Reg) (n : Fin 16) :
    (Drawing.mk s.fb false).Xored (s.drawn x y n) fun a b => s.spriteCovers x y n a.val b.val := by
  have mask : spriteMask (s.spriteRows n) (s.readV x).toNat (s.readV y).toNat =
      fun a b => s.spriteCovers x y n a.val b.val :=
    funext₂ fun a b => propext (s.spriteMask_iff_spriteCovers x y n a b)
  exact mask ▸ Drawing.xored_rows _ _ _ _

/-- The registers after a completed DXYN: the collision in VF, also when X or Y is F. -/
theorem readV_completed_opDXYN (x y : Reg) (n : Fin 16) (s : State) (z : Reg) :
    (completed (.opDXYN x y n) s).readV z = if VF = z then flagByte (s.drawn x y n).collision else s.readV z :=
  ({ s with fb := (s.drawn x y n).fb, changed := true } : State).readV_writeFlag (s.drawn x y n).collision z

/-- Settles O44: the drawn pixels and the collision are those of `xored_drawn`, begun without a collision. -/
theorem drawIsXorWithTheSpriteMask : Obligations.DrawIsXorWithTheSpriteMask := by
  intro x y n s hin
  have hf : faultOf (.opDXYN x y n) s = none := if_neg (by omega)
  have drawn := s.xored_drawn x y n
  have vf : (completed (.opDXYN x y n) s).readV 15 = flagByte (s.drawn x y n).collision :=
    readV_completed_opDXYN x y n s 15
  refine ⟨_, exec_of_no_fault hf, drawn.flips, drawn.keeps, ?_, ?_,
    fun z hz => (readV_completed_opDXYN x y n s z).trans (if_neg hz.symm), rfl⟩
  · rintro ⟨a, b, hlit, hcovers⟩
    exact vf.trans (congrArg flagByte (drawn.collision_iff.mpr (.inr ⟨a, b, hcovers, hlit⟩)))
  · intro hdark
    refine vf.trans (congrArg flagByte (Bool.eq_false_iff.mpr fun hc => ?_))
    obtain hbefore | ⟨a, b, hcovers, hlit⟩ := drawn.collision_iff.mp hc
    · cases hbefore
    · exact hdark a b hlit hcovers

/-! ### Laws of drawing (R173, R175) -/

/-- Settles O46: the second drawing has the mask of the first, whose coordinates, memory and index it left alone; so it flips
the same pixels back, and meets lit exactly those that the first met unlit. -/
theorem drawingTwiceRestoresTheDisplay : Obligations.DrawingTwiceRestoresTheDisplay := by
  intro x y n s hx hy hin
  obtain ⟨t, ht, flips, keeps, -, -, others, frame⟩ := drawIsXorWithTheSpriteMask x y n s hin
  have hi : t.i = s.i := by rw [frame]
  have hmem : t.mem = s.mem := by rw [frame]
  obtain ⟨u, hu, flips', keeps', met, unmet, -, -⟩ := drawIsXorWithTheSpriteMask x y n t (hi ▸ hin)
  have covers (a b : Nat) : t.spriteCovers x y n a b = s.spriteCovers x y n a b := by
    simp only [State.spriteCovers, others x hx, others y hy, hi, hmem]
  simp only [covers] at flips' keeps' met unmet
  refine ⟨t, u, ht, hu, Frame.ext_pixels fun a ha b hb => ?_, fun hvf => ?_, fun ⟨a, b, hcovers, hdark⟩ => ?_⟩
  · by_cases hcovers : s.spriteCovers x y n a b
    · have twice := (flips' ⟨a, ha⟩ ⟨b, hb⟩ hcovers).trans (congrArg _ (flips ⟨a, ha⟩ ⟨b, hb⟩ hcovers))
      exact twice.trans (Bool.not_not _)
    · exact (keeps' ⟨a, ha⟩ ⟨b, hb⟩ hcovers).trans (keeps ⟨a, ha⟩ ⟨b, hb⟩ hcovers)
  · by_contra hlit
    have hzero := unmet fun a b hpix hcovers => hlit ⟨a, b, hcovers, by simpa [flips a b hcovers] using hpix⟩
    rw [hvf] at hzero
    cases hzero
  · exact met ⟨a, b, by rw [flips a b hcovers, hdark]; rfl, hcovers⟩

/-- Settles O47: such a sprite covers no pixel of the canvas. -/
theorem spritesOffTheCanvasAreDropped : Obligations.SpritesOffTheCanvasAreDropped := by
  intro x y n s hoff hin
  obtain ⟨t, ht, -, keeps, -, unmet, -, -⟩ := drawIsXorWithTheSpriteMask x y n s hin
  have off (a : Fin 64) (b : Fin 32) : ¬s.spriteCovers x y n a.val b.val := fun ⟨hxa, _, hyb, _⟩ => by omega
  exact ⟨t, ht, Frame.ext_pixels fun a ha b hb => keeps ⟨a, ha⟩ ⟨b, hb⟩ (off ⟨a, ha⟩ ⟨b, hb⟩),
    unmet fun a b _ => off a b⟩

end Sys2Proof.Machine

/-! The statements about keys and timers: the beep at the end of the cycle of FX18, and the skips on the key that `V[X]`
names. -/

namespace Sys2Proof.Machine

/-! ### The sound timer and the beep (R186, R217, R224) -/

/-- The audio port is 1 exactly while the number in `ST` is positive. -/
theorem State.beep_iff {s : State} : s.beep = true ↔ 0 < s.st.toNat := by
  rw [State.beep, bne_iff_ne, Nat.pos_iff_ne_zero, ne_eq, ne_eq, ← BitVec.toNat_inj, BitVec.toNat_zero]

/-- Settles O19: the cycle of FX18 ends with `ST` one below `V[X]`, floor at 0, which is positive from `V[X]` = 2 on. -/
theorem beepFollowsTheSoundTimer : Obligations.BeepFollowsTheSoundTimer := by
  intro s x hen hfetch
  obtain ⟨t, hstep, -, -, hst, -, -⟩ :=
    timersCountDownEveryCompletedCycle s _ (.opFX18 x) hen hfetch (decodeWord_encode _) rfl
  refine ⟨t, hstep, ?_⟩
  rw [State.beep_iff, hst x rfl]
  exact Nat.sub_pos_iff_lt

/-! ### The key skips (R181, R182) -/

/-- EX9E and EXA1 execute with a register value that names a key. -/
theorem faultOf_keySkip {s : State} {x : Reg} (h : (s.readV x).toNat ≤ 15) :
    faultOf (.opEX9E x) s = none ∧ faultOf (.opEXA1 x) s = none :=
  ⟨if_neg (Nat.not_lt.mpr h), if_neg (Nat.not_lt.mpr h)⟩

/-- Settles O48: a skip completes with the `pc` of R25, read at key `k`, and above 15 takes the fault of its row. -/
theorem keySkipsTestTheNamedKey : Obligations.KeySkipsTestTheNamedKey := by
  refine fun x s => ⟨fun k hk => ?_, fun h => ⟨exec_of_fault (if_pos h), exec_of_fault (if_pos h)⟩⟩
  obtain ⟨hpressed, hreleased⟩ := faultOf_keySkip (hk.trans_le (Nat.le_of_lt_succ k.isLt))
  simp only [← hk, ← Bool.not_eq_true, ite_not]
  exact ⟨⟨_, exec_of_no_fault hpressed, rfl, toNat_pc_completed (.opEX9E x) s⟩,
    ⟨_, exec_of_no_fault hreleased, rfl, toNat_pc_completed (.opEXA1 x) s⟩⟩

end Sys2Proof.Machine

/-! The statements about run control and the fault latch: what each command of the host does, the reset a command or the
run loop performs, and that every step has a next state. -/

namespace Sys2Proof.Machine

/-! ### The reset, immediate or by the run loop (R228, R229, R240, R242) -/

/-- A reset loads a good image, or is refused and keeps the latch and `running`. -/
theorem State.performReset_loads_or_keeps (s : State) :
    (∃ rom, s.rom = some rom ∧ 1 ≤ rom.length ∧ rom.length ≤ 3584 ∧ s.performReset = s.resetWith rom) ∨
      (s.performReset.fault = s.fault ∧ s.performReset.running = s.running) := by
  obtain ⟨rom, hrom, h⟩ | ⟨why, -, h⟩ := s.performReset_cases
  · obtain ⟨hloaded, h1, h2⟩ := resetImage_eq_ok.mp hrom
    exact .inl ⟨rom, hloaded, h1, h2, h⟩
  · exact .inr (h ▸ ⟨rfl, rfl⟩)

/-- A reset does not see whether the machine is initialised. -/
theorem State.performReset_clear_initialized (s : State) :
    ({ s with initialized := false } : State).performReset = s.performReset := by
  simp only [State.performReset]
  split <;> rfl

/-- The refusal of a reset by the run loop also stops the machine. -/
theorem State.performLoopReset_of_refused {s : State} {why : ResetRefusal} (h : refusalOf s.rom = some why) :
    s.performLoopReset = { s.refuseReset why with running := false } := by
  rw [State.performLoopReset, State.performReset_of_refused h]
  simp [State.refuseReset]

/-! ### The commands (R227 to R229) -/

/-- `init` of an initialised machine changes nothing. -/
theorem State.hostDo_init_of_initialized {s : State} (h : s.initialized = true) : s.hostDo .init = s := by
  rw [State.hostDo, if_pos h]

/-- `init` of an uninitialised machine is the reset. -/
theorem State.hostDo_init_of_uninitialized {s : State} (h : s.initialized = false) :
    s.hostDo .init = s.performReset := by
  rw [State.hostDo, if_neg (by simp [h])]

/-- `reset` of a machine that is not running is the reset, at once. -/
theorem State.hostDo_reset_of_stopped {s : State} (h : s.running = false) : s.hostDo .reset = s.performReset := by
  rw [State.hostDo, if_neg (by simp [h]), State.performReset_clear_initialized]

/-- `reset` of a running machine waits for the next boundary. -/
theorem State.hostDo_reset_of_running {s : State} (h : s.running = true) :
    s.hostDo .reset = { s with resetPending := true } := by
  rw [State.hostDo, if_pos h]

/-- `run` of a running or a faulted machine changes nothing. -/
theorem State.hostDo_run_of_running_or_faulted {s : State} (h : s.running = true ∨ s.fault ≠ none) :
    s.hostDo .run = s := by
  rw [State.hostDo, if_pos (by simpa [Option.isSome_iff_ne_none] using h)]

/-- `run` of a stopped, initialised machine sets `running`. -/
theorem State.hostDo_run_of_initialized {s : State} (hrun : s.running = false) (hfault : s.fault = none)
    (hinit : s.initialized = true) : s.hostDo .run = { s with running := true } := by
  rw [State.hostDo, if_neg (by simp [hrun, hfault]), if_pos hinit]

/-- `run` of a stopped, uninitialised machine whose image is refused answers the refusal; the machine stays stopped. -/
theorem State.hostDo_run_of_refused {s : State} {why : ResetRefusal} (hrun : s.running = false) (hfault : s.fault = none)
    (hinit : s.initialized = false) (hwhy : refusalOf s.rom = some why) :
    s.hostDo .run = { s.refuseReset why with running := false } := by
  rw [State.hostDo, if_neg (by simp [hrun, hfault]), if_neg (by simp [hinit]),
    State.performLoopReset_of_refused (s := { s with running := true }) hwhy]
  rfl

/-- Settles O53: `init` and `run` by the flags and the image, each case the equation of its command. -/
theorem initAndRunCommands : Obligations.InitAndRunCommands := by
  refine fun s => ⟨fun _ => rfl, State.hostDo_init_of_initialized, fun rom hinit hrom h1 h2 => ?initLoads,
    fun why hinit hwhy => ?initRefused, State.hostDo_run_of_running_or_faulted, State.hostDo_run_of_initialized,
    fun rom hrun hfault hinit hrom h1 h2 => State.hostDo_run_of_image hrun hfault hinit hrom h1 h2,
    fun why hrun hfault hinit hwhy => ?runRefused⟩
  case initLoads => rw [State.hostDo_init_of_uninitialized hinit, State.performReset_of_image hrom h1 h2]
  case initRefused =>
    rw [State.hostDo_init_of_uninitialized hinit, State.performReset_of_refused hwhy]
    exact ⟨rfl, rfl, rfl, rfl, rfl⟩
  case runRefused =>
    rw [State.hostDo_run_of_refused hrun hfault hinit hwhy]
    exact ⟨rfl, rfl, rfl, rfl, hfault⟩

/-! ### The deferred reset (R228, R242, R243) -/

/-- A pending reset is due in a running machine that is not paused. -/
theorem State.resetDue_of_pending {s : State} (hrun : s.running = true) (hpaused : s.paused = false)
    (hpending : s.resetPending = true) : s.resetDue = true := by
  simp [State.resetDue, hrun, hpaused, hpending]

/-- A step at which the host says `reset` to a running machine that is not paused is the deferred reset (R228). -/
theorem step_of_reset_command {s : State} {rest : List (List HostCmd)} (h : s.inputs = [.reset] :: rest)
    (hrun : s.running = true) (hpaused : s.paused = false) :
    step s = .next ({ s with
      inputs := rest, strobes := [], answers := [], resetPending := true } : State).honourReset := by
  have hphase : s.hostPhase = { s with inputs := rest, strobes := [], answers := [], resetPending := true } :=
    (State.hostPhase_of_command h).trans (State.hostDo_reset_of_running hrun)
  rw [step_of_resetDue (hphase ▸ State.resetDue_of_pending hrun hpaused rfl), hphase]

/-- Settles O56: a reset that is due is what the step does, and `reset` of a running machine makes it due. -/
theorem deferredResetOfARunningMachine : Obligations.DeferredResetOfARunningMachine := by
  refine ⟨fun s => State.hostDo_reset_of_running, fun s rom hrun hrom h1 h2 => ?loads, fun s why hrun hwhy => ?refused,
    fun s rom hrun hpaused hpending hrom h1 h2 => ?dueLoads, fun s why hrun hpaused hpending hwhy => ?dueRefused,
    fun s rest rom h hrun hpaused hrom h1 h2 => ?saidLoads, fun s rest why h hrun hpaused hwhy => ?saidRefused⟩
  case loads => rw [State.hostDo_reset_of_stopped hrun, State.performReset_of_image hrom h1 h2]
  case refused =>
    rw [State.hostDo_reset_of_stopped hrun, State.performReset_of_refused hwhy]
    exact ⟨rfl, rfl, hrun⟩
  case dueLoads =>
    rw [step_of_resetDue (State.resetDue_of_pending hrun hpaused hpending),
      State.honourReset_of_image hrun hrom h1 h2]
  case dueRefused =>
    rw [step_of_resetDue (State.resetDue_of_pending hrun hpaused hpending), State.honourReset_of_refused hwhy]
    exact ⟨_, rfl, rfl, rfl, rfl, hpaused, rfl, rfl⟩
  case saidLoads =>
    rw [step_of_reset_command h hrun hpaused, State.honourReset_of_image (by exact hrun) (by exact hrom) h1 h2]
    rfl
  case saidRefused =>
    rw [step_of_reset_command h hrun hpaused, State.honourReset_of_refused (by exact hwhy)]
    exact ⟨_, rfl, rfl, rfl, rfl, hpaused, rfl, rfl, rfl⟩

/-! ### The fault latch and the next state (R206, R207, R221) -/

/-- Settles O12: no command but a reset writes the latch, `run` does nothing while it is set, and a stopped machine idles. -/
theorem faultLatchIsClearedOnlyByReset : Obligations.FaultLatchIsClearedOnlyByReset := by
  intro s f hfault hrun
  have reset : (s.performReset.fault = some f ∧ s.performReset.running = false) ∨
      ∃ rom, s.rom = some rom ∧ 1 ≤ rom.length ∧ rom.length ≤ 3584 ∧ s.performReset = s.resetWith rom := by
    obtain hloads | ⟨hf, hr⟩ := s.performReset_loads_or_keeps
    · exact .inr hloads
    · exact .inl ⟨hf.trans hfault, hr.trans hrun⟩
  refine ⟨fun c => ?_, fun h => ?_⟩
  · cases c with
    | init =>
      cases hinit : s.initialized with
      | true => rw [State.hostDo_init_of_initialized hinit]; exact .inl ⟨hfault, hrun⟩
      | false => rwa [State.hostDo_init_of_uninitialized hinit]
    | reset => rwa [State.hostDo_reset_of_stopped hrun]
    | run => rw [State.hostDo_run_of_running_or_faulted (.inr (by simp [hfault]))]; exact .inl ⟨hfault, hrun⟩
    | stop => exact .inl ⟨hfault, rfl⟩
    | setCycleSpeedHz hz => simp only [State.hostDo]; split <;> exact .inl ⟨hfault, hrun⟩
    | _ => exact .inl ⟨hfault, hrun⟩
  · have hphase := State.hostPhase_of_no_inputs h
    rw [step_of_stopped_or_paused (.inl (by rw [hphase]; exact hrun)), hphase]

/-- Every cycle answers a next state: the fault of the fetch or of decode taken, or the instruction executed. -/
theorem cycle_answers_next (s : State) : ∃ t, cycle s = .next t := by
  cases hfetch : s.fetch with
  | error f => exact ⟨_, cycle_of_fetch_error hfetch⟩
  | ok op =>
    cases hop : decodeWord op with
    | none => exact ⟨_, cycle_of_no_instruction hfetch hop⟩
    | some i => exact ⟨_, cycle_of_instruction hfetch hop⟩

/-- Settles O13: the step is a pending reset, a cycle, which always answers a next state, or the host's commands alone. -/
theorem everyStepAnswersANextState : Obligations.EveryStepAnswersANextState := by
  intro s
  cases hreset : s.hostPhase.resetDue with
  | true => exact ⟨_, step_of_resetDue hreset⟩
  | false =>
    cases hcycle : s.hostPhase.cycleEnabled with
    | true => exact step_of_cycleEnabled hcycle ▸ cycle_answers_next _
    | false => exact ⟨_, step_of_idle hreset hcycle⟩

end Sys2Proof.Machine

/-! The statements about the canonical form of memory: every step keeps it, and in it memories that read alike are the same
data. -/

namespace Sys2Proof.Machine

/-! ### Every step keeps the canonical form

Memory is written by a reset, refused or not, whatever it was before, and by a completed instruction; nothing else touches
it. -/

/-- A reset gives canonical memory, loaded or unspecified. -/
theorem State.mem_wf_performReset (s : State) : s.performReset.mem.wf = true := by
  obtain ⟨rom, -, h⟩ | ⟨why, -, h⟩ := s.performReset_cases <;> rw [h]
  · exact (s.inv_resetWith rom).mem_wf
  · exact Memory.ofCells_wf _ _

/-- Every command of the host keeps the canonical form: it is a reset or leaves memory alone. -/
theorem State.mem_wf_hostDo {s : State} (hm : s.mem.wf = true) (c : HostCmd) : (s.hostDo c).mem.wf = true := by
  cases c with
  | init =>
    simp only [State.hostDo]
    split
    · exact hm
    · exact s.mem_wf_performReset
  | run =>
    simp only [State.hostDo]
    split
    · exact hm
    · split
      · exact hm
      · exact State.mem_wf_performReset { s with running := true }
  | reset =>
    simp only [State.hostDo]
    split
    · exact hm
    · exact State.mem_wf_performReset { s with initialized := false }
  | setCycleSpeedHz hz => simp only [State.hostDo]; split <;> exact hm
  | _ => exact hm

/-- Every boundary keeps the canonical form. -/
theorem State.mem_wf_hostPhase {s : State} (hm : s.mem.wf = true) : s.hostPhase.mem.wf = true :=
  State.hostPhase_induction (P := fun u => u.mem.wf = true) hm fun _ c hu => State.mem_wf_hostDo hu c

/-- The end of a cycle leaves memory alone. -/
theorem State.mem_finishCycle (s : State) : s.finishCycle.mem = s.mem := by
  simp only [State.finishCycle]; split <;> rfl

/-- An instruction keeps the canonical form: a fault writes no memory, and a completed instruction one block. -/
theorem exec_mem_wf {i : Instr} {s t : State} (hm : s.mem.wf = true) (h : exec i s = .next t) : t.mem.wf = true := by
  obtain ⟨f, -, rfl⟩ | ⟨hf, rfl⟩ := exec_cases h
  · exact hm
  · exact mem_wf_completed hf hm

/-- A cycle keeps the canonical form. -/
theorem cycle_mem_wf {s t : State} (hm : s.mem.wf = true) (h : cycle s = .next t) : t.mem.wf = true := by
  obtain ⟨f, -, rfl⟩ | ⟨op, -, -, rfl⟩ | ⟨op, i, u, -, -, hu, rfl⟩ := cycle_cases h
  · exact hm
  · exact hm
  · rw [State.mem_finishCycle]
    exact exec_mem_wf hm hu

/-- Settles O23: the boundary, then a deferred reset, a cycle or nothing, each keeps the canonical form. -/
theorem stepKeepsMemoryCanonical : Obligations.StepKeepsMemoryCanonical := by
  intro s t hm ht
  obtain ⟨-, rfl⟩ | ⟨-, hc⟩ | ⟨-, -, rfl⟩ := step_cases ht
  · exact State.mem_wf_performReset { s.hostPhase with initialized := false }
  · exact cycle_mem_wf (State.mem_wf_hostPhase hm) hc
  · exact State.mem_wf_hostPhase hm

/-! ### Canonical memories that read alike -/

section CanonicalCells

variable {font : Config.FontTable}

/-- The canonical form of cells with a first entry. -/
theorem cellsWf_cons {lo a : Nat} {w : Byte} {t : List Host.Cell} :
    cellsWf font lo ((a, w) :: t) = true ↔
      lo ≤ a ∧ a < Config.memSize ∧ w ≠ unlisted font a ∧ cellsWf font (a + 1) t = true := by
  simp only [cellsWf, Bool.and_eq_true, decide_eq_true_eq, bne_iff_ne, and_assoc]

/-- The first entry of canonical cells can be read: cells that list nothing up to its address read another byte there. -/
theorem readCells_head_ne {lo hi a : Nat} {w : Byte} {t l : List Host.Cell} (h : cellsWf font lo ((a, w) :: t) = true)
    (hl : cellsWf font hi l = true) (ha : a < hi) : readCells font ((a, w) :: t) a ≠ readCells font l a := by
  obtain ⟨-, -, hw, -⟩ := cellsWf_cons.mp h
  rw [readCells_of_lt hl ha, readCells, if_pos rfl]
  exact hw

/-- Canonical cells behind their first entry read as the whole, but for the address of that entry. -/
theorem readCells_tail {lo a : Nat} {w : Byte} {t : List Host.Cell} (h : cellsWf font lo ((a, w) :: t) = true) (b : Nat) :
    readCells font t b = if a = b then unlisted font b else readCells font ((a, w) :: t) b := by
  obtain ⟨-, -, -, ht⟩ := cellsWf_cons.mp h
  by_cases hb : a = b
  · rw [if_pos hb, readCells_of_lt ht (by omega)]
  · rw [if_neg hb, readCells, if_neg hb]

/-- Of two canonical cell lists that read alike, neither begins below the first address of the other. -/
theorem head_le_of_readCells_eq {lo lo' a b : Nat} {w u : Byte} {t t' : List Host.Cell}
    (h : cellsWf font lo ((a, w) :: t) = true) (h' : cellsWf font lo' ((b, u) :: t') = true)
    (heq : readCells font ((a, w) :: t) a = readCells font ((b, u) :: t') a) : b ≤ a := by
  by_contra hab
  obtain ⟨-, hrest⟩ := cellsWf_cons.mp h'
  have hb : cellsWf font b ((b, u) :: t') = true := cellsWf_cons.mpr ⟨le_rfl, hrest⟩
  exact readCells_head_ne h hb (by omega) heq

/-- Canonical cells that read alike are the same list: they begin with the same entry, and their tails read alike. -/
theorem cells_eq_of_readCells_eq {lo lo' : Nat} {l l' : List Host.Cell} (h : cellsWf font lo l = true)
    (h' : cellsWf font lo' l' = true) (heq : ∀ a, readCells font l a = readCells font l' a) : l = l' := by
  induction l generalizing lo lo' l' with
  | nil =>
    cases l' with
    | nil => rfl
    | cons c t' => exact absurd (heq c.1).symm (readCells_head_ne (l := []) h' rfl (Nat.lt_succ_self _))
  | cons c t ih =>
    cases l' with
    | nil => exact absurd (heq c.1) (readCells_head_ne (l := []) h rfl (Nat.lt_succ_self _))
    | cons c' t' =>
      obtain ⟨a, w⟩ := c
      obtain ⟨b, u⟩ := c'
      obtain rfl : a = b :=
        le_antisymm (head_le_of_readCells_eq h' h (heq b).symm) (head_le_of_readCells_eq h h' (heq a))
      have hwu : w = u := by simpa [readCells] using heq a
      obtain ⟨-, -, -, ht⟩ := cellsWf_cons.mp h
      obtain ⟨-, -, -, ht'⟩ := cellsWf_cons.mp h'
      have htail : t = t' := ih ht ht' fun c => by rw [readCells_tail h, readCells_tail h', heq c]
      rw [hwu, htail]

end CanonicalCells

/-- Settles O24: the cells of the two memories are canonical lists under one `FONT` that read alike. -/
theorem canonicalMemoryIsUnique : Obligations.CanonicalMemoryIsUnique := by
  rintro ⟨font, cells⟩ ⟨_, cells'⟩ rfl hm hn hread
  exact congrArg (Memory.mk font) (cells_eq_of_readCells_eq hm hn hread)

end Sys2Proof.Machine
